-- ==== Sys2Proof/Word.lean ====
section
/-! DEFINITION. The words of the block: the widths of 00_scope.md R7 (TW = 32, DW = 16, CW = 24,
RW = 16, NCH = 12, NGPIO = 8), bit 0 the least significant (R8). -/

namespace Sys2Proof

/-- A byte of the chip's register space (20_memory.md R50). -/
abbrev Byte := BitVec 8

/-- A register number of the chip (20_memory.md R50). -/
abbrev RegNo := BitVec 8

/-- A command word, CW = 24 bits (30_encoding.md R80). -/
abbrev CommandWord := BitVec 24

/-- A response word, RW = 16 bits (30_encoding.md R82). -/
abbrev ResponseWord := BitVec 16

/-- A value of the millisecond counter, TW = 32 bits (10_state.md R36). -/
abbrev Time := BitVec 32

/-- A debounce value in milliseconds, DW = 16 bits (00_scope.md R7). -/
abbrev Millis := BitVec 16

/-- The 12-bit aggregate and the data field of a response (30_encoding.md R82). -/
abbrev Mask12 := BitVec 12

/-- The index of a channel, 0..11 (00_scope.md R7, NCH). -/
abbrev ChannelIx := Fin 12

/-- The bit of a channel in the GPIO registers, 0..7 (00_scope.md R7, NGPIO). -/
abbrev GpioBit := Fin 8

/-- `zext_12` of one bit (00_scope.md R9). -/
def bit12 (b : Bool) : Mask12 := if b then 1#12 else 0#12

end Sys2Proof
end

