-- ==== Sys2Proof/Config.lean ====
section
/-! DEFINITION. The implementation parameters (00_scope.md R7) and the free values. A constant
declared `opaque` has no value that a proof can see: a statement about it holds for every value. -/

namespace Sys2Proof

/-- DBD_RESET, the reset value of `dev.debounceDefault`: OPEN (00_scope.md R7, decision D13).
Log 4. -/
opaque Config.dbdReset : Millis

/-- ECR_HI, the upper four bits of every electrode-configuration value the block writes: OPEN
(00_scope.md R7, 20_memory.md R62, decision D23). Log 5. -/
opaque Config.ecrHi : BitVec 4

/-- BUS_ADDR at the default the document gives (00_scope.md R7, 10_state.md R30).
DESIGN CHOICE, log 6: the model is of a block whose parameter has its default value. -/
def Config.busAddr : BitVec 7 := 0x5A#7

/-- The free values: the n-th byte of the chip that nothing determines (20_memory.md R57, U10: the
chip is an oracle for reads). Log 3. -/
opaque Config.chipByte : Nat → Byte

/-- What the 16 read data lines carry in an answer that reads nothing: a write's, or one with the
error bit (10_state.md R38, 20_memory.md R53, R55). No rule says it and the block ignores it.
Log 33. -/
opaque Config.noReadData : BitVec 16

end Sys2Proof
end

