-- ==== Sys2Proof/Syntax.lean ====
section
/-! DEFINITION. The 11 commands of 30_encoding.md R84, one constructor per row of
spec/opcode_table.json. Operands have the widths of R81: a `ch` of 12..15 and a `role` of 3 are
operand values that decode and are refused by value (R86). -/

namespace Sys2Proof

/-- A decoded command. -/
inductive Instr where
  /-- `touched()`: the aggregate (42_touch_detection.md R141). -/
  | tchall
  /-- `touched(channel)`: the debounced query of one channel (42_touch_detection.md R145). -/
  | tchch (ch : BitVec 4)
  /-- `useIRQ(enable)`: the detection mode (43_interrupt_plumbing.md R160). -/
  | useirq (en : Bool)
  /-- `setChannelType`: the role of a channel (40_channel_role_packer.md R100). -/
  | settype (ch : BitVec 4) (role : BitVec 2)
  /-- The device-wide debounce value (44_debounce_config.md R170). -/
  | setdbd (v : Millis)
  /-- A channel's own debounce value (44_debounce_config.md R171). -/
  | setdbc (ch : BitVec 4) (v : Millis)
  /-- Removes a channel's own debounce value (44_debounce_config.md R172). -/
  | clrdbc (ch : BitVec 4)
  /-- `enablePullUp` (41_gpio_bit_ops.md R122). -/
  | pullup (ch : BitVec 4)
  /-- `enablePullDown` (41_gpio_bit_ops.md R123). -/
  | pulldn (ch : BitVec 4)
  /-- `setGPIOEnabled` (41_gpio_bit_ops.md R124). -/
  | gpioen (ch : BitVec 4) (en : Bool)
  /-- `getGPIOStatus` (41_gpio_bit_ops.md R126). -/
  | gpiost (ch : BitVec 4)
deriving DecidableEq, Repr

/-- The mnemonic of a command (30_encoding.md R84). -/
def Instr.mnemonic : Instr → String
  | .tchall => "TCHALL"
  | .tchch _ => "TCHCH"
  | .useirq _ => "USEIRQ"
  | .settype _ _ => "SETTYPE"
  | .setdbd _ => "SETDBD"
  | .setdbc _ _ => "SETDBC"
  | .clrdbc _ => "CLRDBC"
  | .pullup _ => "PULLUP"
  | .pulldn _ => "PULLDN"
  | .gpioen _ _ => "GPIOEN"
  | .gpiost _ => "GPIOST"

/-- The `ch` operand of a command that takes one (30_encoding.md R81). -/
def Instr.channel? : Instr → Option (BitVec 4)
  | .tchall => none
  | .tchch ch => some ch
  | .useirq _ => none
  | .settype ch _ => some ch
  | .setdbd _ => none
  | .setdbc ch _ => some ch
  | .clrdbc ch => some ch
  | .pullup ch => some ch
  | .pulldn ch => some ch
  | .gpioen ch _ => some ch
  | .gpiost ch => some ch

/-- The `role` operand of SETTYPE (30_encoding.md R81). -/
def Instr.role? : Instr → Option (BitVec 2)
  | .settype _ r => some r
  | .tchall | .tchch _ | .useirq _ | .setdbd _ | .setdbc _ _ | .clrdbc _
  | .pullup _ | .pulldn _ | .gpioen _ _ | .gpiost _ => none

end Sys2Proof
end

