-- ==== Sys2Proof/Machine/State.lean ====
section
/-! DEFINITION. The state of the block (10_state.md), the sequencer of a command in progress, the
ports, the chip's register space and the environment's behaviour, all as plain data; and the state
right after reset (R45). -/

namespace Sys2Proof.Machine

/-- The role of a channel (10_state.md R20, R21). -/
inductive Role where
  | sensor
  | gpioIn
  | gpioOut
deriving DecidableEq, Repr

/-- The touch-state latch of a channel (10_state.md R25). -/
inductive Latch where
  | idle
  | touched
deriving DecidableEq, Repr

/-- A Channel record (10_state.md R20). -/
structure Channel where
  role : Role
  /-- The channel has its own debounce value (R22). -/
  dbv : Bool
  /-- The channel's own debounce value, meaningful when `dbv` (R20, R22). -/
  debounce : Millis
  /-- `now` at the most recent accepted touch (R23). -/
  lastTouchTimestamp : Time
  touched : Latch
  /-- The cached logical level of the pin (R26). -/
  gpioOutputHigh : Bool
deriving DecidableEq, Repr

/-- A Channel record at reset (10_state.md R45). -/
def Channel.reset : Channel where
  role := .sensor
  dbv := false
  debounce := 0#16
  lastTouchTimestamp := 0#32
  touched := .idle
  gpioOutputHigh := false

/-- A transport request (20_memory.md R51 to R53): the device address, the register, and the byte of
a write. `Request.word` is its word on the `xp_req` port. -/
inductive Request where
  | read8 (device : BitVec 7) (reg : RegNo)
  | read16 (device : BitVec 7) (reg : RegNo)
  | write8 (device : BitVec 7) (reg : RegNo) (v : Byte)
deriving DecidableEq, Repr

/-- A word on the `xp_req` port (10_state.md R38). Log 33: what the write data lines carry in a read
request is not said, and the model says nothing of it (`none`). -/
structure XpRequest where
  /-- 0 = read 8, 1 = read 16, 2 = write 8. -/
  kind : BitVec 2
  device : BitVec 7
  reg : RegNo
  writeData : Option Byte
deriving DecidableEq, Repr

/-- A word on the `xp_rsp` port (10_state.md R38): the answer to the one outstanding request. -/
structure XpAnswer where
  error : Bool
  readData : BitVec 16
deriving DecidableEq, Repr

/-- How the transport ends a request (20_memory.md R55): without its error bit, or with it. The word
on `xp_rsp` follows from this and from the chip (`State.chipAnswer`). A write that
failed may still have reached the chip, but for the one of 41_gpio_bit_ops.md R128: `landed` says
whether it did (`Request.mayLand`). The model's reading of R121 (a failed write "leaves the register as
the chip left it"): log 11. -/
inductive Answer where
  | ok
  | error (landed : Bool)
deriving DecidableEq, Repr

/-- What another agent does at one instant, between two micro-steps or between two commands
(00_scope.md R11). -/
inductive Event where
  /-- `irq_fire` (43_interrupt_plumbing.md R161). -/
  | fireIrq
  /-- `rst` (10_state.md R45, 70_reset_and_hazards.md R211). `landed` says whether a write request
  that has no answer yet still completes at the chip. Log 12. -/
  | rst (landed : Bool)
  /-- The chip changes one of its registers by itself (20_memory.md R57). -/
  | chipByte (reg : RegNo) (v : Byte)
  /-- The host or another bus master writes a chip register (20_memory.md R71, R72). -/
  | busWrite (reg : RegNo) (v : Byte)
  /-- The chip's power-on reset (70_reset_and_hazards.md R213). -/
  | chipReset
  /-- The value of the time input changes (10_state.md R36). -/
  | setNow (v : Time)
deriving DecidableEq, Repr

/-- What the environment does at one micro-step: the events just before it, and the answer to the
transport request it issues, if it issues one; `none` is a transport that does not answer yet
(20_memory.md R56). Log 2. -/
structure Slot where
  events : List Event
  answer : Option Answer
deriving DecidableEq, Repr

/-- Nothing happens, and the transport answers without error. -/
def Slot.quiet : Slot where
  events := []
  answer := some .ok

/-- What arrives while no micro-step runs (10_state.md R38, R41). -/
inductive Input where
  /-- The host presents a word on `cmd`. -/
  | command (w : CommandWord)
  | event (e : Event)
  /-- The transport answers the outstanding request. -/
  | answer (a : Answer)
deriving DecidableEq, Repr

/-- One micro-step of a command after S0 (00_scope.md R11), named for what the rule of its command
does there. -/
inductive MicroOp where
  /-- SETTYPE S1 (40_channel_role_packer.md R104). -/
  | assignRole (c : ChannelIx) (r : Role)
  /-- SETTYPE S2 (R105). -/
  | writeEnable
  /-- SETTYPE S3 (R105). -/
  | writeDirection
  /-- SETTYPE S4 (R106). -/
  | writeElectrodes
  /-- SETTYPE S5 (R107). -/
  | clearOutputs
  /-- `MemRead(reg, 1)` into the held value (41_gpio_bit_ops.md R121, R126). -/
  | readRegister (reg : RegNo)
  /-- The write of a read-modify-write (41_gpio_bit_ops.md R121). -/
  | writeBit (reg : RegNo) (k : GpioBit) (b : Bool)
  /-- AGG A1 in polling mode (42_touch_detection.md R140). -/
  | readStatus
  /-- AGG A2 in polling mode (R140). -/
  | takeStatus
  /-- AGG A1 in interrupt-latch mode (R140). -/
  | takeLatch
  /-- TCHCH S3 (R145). -/
  | judgeTouch (c : ChannelIx)
  /-- GPIOST S2 (41_gpio_bit_ops.md R126). -/
  | cacheLevel (c : ChannelIx)
deriving DecidableEq, Repr

/-- The sequencer's state while a command is in progress (10_state.md R42). -/
structure InFlight where
  /-- The micro-steps still to run. When none is left the command responds with `data`. -/
  todo : List MicroOp
  /-- The sample of `now` taken in S0 (R36). -/
  t : Time
  /-- The value read from the transport by an earlier micro-step. -/
  held : BitVec 16
  /-- The aggregate m, then the data of the response (42_touch_detection.md R140, R145). -/
  data : Mask12
  /-- The request that has no answer yet (20_memory.md R50). -/
  outstanding : Option Request
deriving DecidableEq, Repr

/-- The machine: block, ports, chip and environment. -/
structure State where
  /-- `x[0]` to `x[11]` (10_state.md R20). -/
  x : Vector Channel 12
  /-- `dev.address` (R30). -/
  address : BitVec 7
  /-- `dev.useIRQ` (R31). -/
  useIRQ : Bool
  /-- `dev.interrupted` (R32). -/
  interrupted : Bool
  /-- `dev.debounceDefault` (R30). -/
  debounceDefault : Millis
  /-- The command in progress, if any (R40 to R42). -/
  busy : Option InFlight
  /-- The time input (R36). -/
  now : Time
  /-- What arrives between commands, oldest first (R38). Log 1. -/
  inputs : List Input
  /-- The environment's behaviour at the coming micro-steps. Log 2. -/
  script : List Slot
  /-- The words sent on `rsp` so far, oldest first (R38). Log 10. -/
  rspOut : List ResponseWord
  /-- The words sent on `xp_req` so far, oldest first (R38). Log 10. -/
  xpOut : List XpRequest
  /-- The chip's registers, as far as they are determined (20_memory.md R50, R57). Log 3. -/
  regs : List Host.Cell
  /-- The chip's GPIO output latches, bit k for channel k + 4 (20_memory.md R65). -/
  outLatch : Byte
  /-- How many free values have been drawn. Log 8. -/
  draws : Nat
deriving DecidableEq, Repr

/-- Why the machine stops with a fault: never. "The block has no traps in the processor sense: a
failure is a status code in the response" (60_exceptions.md), and a transport that never answers is
a hang, not a fault (20_memory.md R56). No constructor, so nothing raises it. Log 31. -/
inductive Fault where
deriving DecidableEq, Repr

/-- Why an instruction has no next state. -/
inductive Refusal where
  /-- Raised by `exec` for an instruction that has no meaning yet; safe. No arm of `exec` raises
  it: every command is modelled. -/
  | notModelled (mnemonic : String)
deriving DecidableEq, Repr

/-- The machine right after reset (10_state.md R45): the block as `rst` leaves it, nothing
presented on a port, nothing known of the chip's registers (70_reset_and_hazards.md R213). The
values of `now`, `script`, `outLatch` and `draws` are the model's: logs 9, 2, 7, 8. -/
def State.reset : State where
  x := Vector.replicate 12 Channel.reset
  address := Config.busAddr
  useIRQ := false
  interrupted := false
  debounceDefault := Config.dbdReset
  busy := none
  now := 0#32
  inputs := []
  script := []
  rspOut := []
  xpOut := []
  regs := []
  outLatch := 0#8
  draws := 0

end Sys2Proof.Machine
end

