-- ==== Sys2Proof/Machine/Flags.lean ====
section
/-! DEFINITION. The one flag of the block, `dev.interrupted` (10_state.md R32, 60_exceptions.md
R192), and the mode flag `dev.useIRQ` (R31). -/

namespace Sys2Proof.Machine

/-- FIREIRQ (43_interrupt_plumbing.md R161): sets the latch, in both modes, and nothing else. -/
def State.fireIrq (s : State) : State := { s with interrupted := true }

/-- The clear of AGG (42_touch_detection.md R140). -/
def State.clearInterrupted (s : State) : State := { s with interrupted := false }

/-- `zext_12(dev.interrupted)`, the aggregate in interrupt-latch mode (R140). -/
def State.irqAggregate (s : State) : Mask12 := bit12 s.interrupted

/-- `dev.useIRQ <- en` (43_interrupt_plumbing.md R160). -/
def State.setUseIRQ (s : State) (en : Bool) : State := { s with useIRQ := en }

end Sys2Proof.Machine
end

