-- ==== Sys2Proof/Machine/Registers.lean ====
section
/-! DEFINITION. The chip's address map (20_memory.md R60, R63) and the layout of the values the
block writes (R62, R64). -/

namespace Sys2Proof.Machine

/-- Touch status, the 16-bit pair at 0x00 (R60, R61). -/
def regTouchStatus : RegNo := 0x00#8
/-- Config2 (R60, R67). -/
def regConfig2 : RegNo := 0x5D#8
/-- Electrode configuration register (R60, R62). -/
def regEcr : RegNo := 0x5E#8
/-- GPIO_CTL0 (R63). -/
def regGpioCtl0 : RegNo := 0x73#8
/-- GPIO_CTL1 (R63). -/
def regGpioCtl1 : RegNo := 0x74#8
/-- GPIO_DAT (R63). -/
def regGpioDat : RegNo := 0x75#8
/-- GPIO_DIR (R63). -/
def regGpioDir : RegNo := 0x76#8
/-- GPIO_EN (R63). -/
def regGpioEn : RegNo := 0x77#8
/-- GPIO_SET (R63). -/
def regGpioSet : RegNo := 0x78#8
/-- GPIO_CLR (R63). -/
def regGpioClr : RegNo := 0x79#8
/-- GPIO_TOG (R63). -/
def regGpioTog : RegNo := 0x7A#8
/-- Soft reset (R60, R68). -/
def regSoftReset : RegNo := 0x80#8

/-- The value that, written to `regSoftReset`, resets the chip (R68). -/
def softResetKey : Byte := 0x63#8

/-- Config2's expected reset value (R67, 70_reset_and_hazards.md R217). -/
def config2Reset : Byte := 0x24#8

/-- The registers that are writable only while the ECR is 0 (R62: "most other registers"): 0x2B to
0x72 but the ECR, and 0x7B to 0x7F (70_reset_and_hazards.md R225, G5, there general knowledge).
Log 16. -/
def needsStop (reg : RegNo) : Bool :=
  decide ((0x2B ≤ reg.toNat ∧ reg.toNat ≤ 0x72 ∧ reg ≠ regEcr) ∨
    (0x7B ≤ reg.toNat ∧ reg.toNat ≤ 0x7F))

/-- Touch threshold of channel i (R60). -/
def regTouchThreshold (i : ChannelIx) : RegNo := BitVec.ofNat 8 (0x41 + 2 * i.val)

/-- Release threshold of channel i (R60). -/
def regReleaseThreshold (i : ChannelIx) : RegNo := BitVec.ofNat 8 (0x42 + 2 * i.val)

/-- Low byte of the filtered data of channel i (R60); the block does not access it. -/
def regFilteredData (i : ChannelIx) : RegNo := BitVec.ofNat 8 (0x04 + 2 * i.val)

/-- Baseline of channel i (R60); the block does not access it. -/
def regBaseline (i : ChannelIx) : RegNo := BitVec.ofNat 8 (0x1E + i.val)

/-- The ECR value for n electrodes: `{ ECR_HI, n }` (R62). -/
def ecrValue (n : Nat) : Byte := Config.ecrHi ++ BitVec.ofNat 4 n

/-- A byte from its eight bits, bit k of the byte being `p k` (00_scope.md R8). -/
def packBits (p : GpioBit → Bool) : Byte :=
  BitVec.ofBool (p 7) ++ BitVec.ofBool (p 6) ++ BitVec.ofBool (p 5) ++ BitVec.ofBool (p 4) ++
    BitVec.ofBool (p 3) ++ BitVec.ofBool (p 2) ++ BitVec.ofBool (p 1) ++ BitVec.ofBool (p 0)

/-- Single-bit set and clear of the read-modify-write (41_gpio_bit_ops.md R121, 00_scope.md R10):
`old | (1 << k)` or `old & ~(1 << k)`. -/
def withBit (old : Byte) (k : GpioBit) (b : Bool) : Byte :=
  if b then old ||| (1#8 <<< k.val) else old &&& ~~~(1#8 <<< k.val)

end Sys2Proof.Machine
end

