-- ==== Sys2Proof/Machine/Operands.lean ====
section
/-! DEFINITION. The operands of the commands (30_encoding.md R81, R86), the channel records they
select (10_state.md R20) and the values computed from them: the effective debounce (R22), the
window (42_touch_detection.md R143), the GPIO bit (41_gpio_bit_ops.md R120). -/

namespace Sys2Proof.Machine

/-- The channel a `ch` operand selects; none for 12..15 (30_encoding.md R86). -/
def channelOf (ch : BitVec 4) : Option ChannelIx :=
  if h : ch.toNat < 12 then some ⟨ch.toNat, h⟩ else none

/-- The role a `role` operand names; none for 3 (30_encoding.md R81, R86). -/
def roleOf (r : BitVec 2) : Option Role :=
  match r.toNat with
  | 0 => some .sensor
  | 1 => some .gpioIn
  | 2 => some .gpioOut
  | _ => none

/-- The 2-bit encoding of a role (10_state.md R20). -/
def Role.code : Role → BitVec 2
  | .sensor => 0#2
  | .gpioIn => 1#2
  | .gpioOut => 2#2

/-- `k = ch - 4` (41_gpio_bit_ops.md R120, 00_scope.md R10). For a channel below 4, which no
reachable state brings here, the difference is cut at 0. Log 19. -/
def gpioBit (c : ChannelIx) : GpioBit := ⟨c.val - 4, by omega⟩

/-- `x[c]`. -/
def State.chan (s : State) (c : ChannelIx) : Channel := s.x[c.val]

/-- `x[c] <- v`, all fields at once. -/
def State.setChan (s : State) (c : ChannelIx) (v : Channel) : State :=
  { s with x := s.x.set c.val v }

/-- The role table (10_state.md R21). -/
def State.role (s : State) (c : ChannelIx) : Role := (s.chan c).role

/-- `deb(i)` of 10_state.md R22. -/
def State.deb (s : State) (c : ChannelIx) : Millis :=
  if (s.chan c).dbv then (s.chan c).debounce else s.debounceDefault

/-- `a -_TW b` (00_scope.md R10). -/
def timeDiff (a b : Time) : Time := a - b

/-- `elapsed(i, t)` of 42_touch_detection.md R143: unsigned `>=` on TW bits. -/
def State.elapsed (s : State) (c : ChannelIx) (t : Time) : Bool :=
  Nat.ble (s.deb c).toNat (timeDiff t (s.chan c).lastTouchTimestamp).toNat

end Sys2Proof.Machine
end

