-- ==== Sys2Proof/Machine/RoleTable.lean ====
section
/-! DEFINITION. The values the role packer computes from the role table
(40_channel_role_packer.md R103, R105, R106). -/

namespace Sys2Proof.Machine

/-- The channels, lowest first. -/
def allChannels : List ChannelIx := [0, 1, 2, 3, 4, 5, 6, 7, 8, 9, 10, 11]

/-- The channel of a GPIO bit: k + 4 (20_memory.md R63). -/
def channelOfBit (k : GpioBit) : ChannelIx := ⟨k.val + 4, by omega⟩

/-- `pack_en()` of R105: bit k is 1 when channel k + 4 is not a SENSOR. -/
def packEn (role : ChannelIx → Role) : Byte :=
  packBits fun k => decide (role (channelOfBit k) ≠ .sensor)

/-- `pack_dir()` of R105: bit k is 1 when channel k + 4 is a GPIO_OUT. -/
def packDir (role : ChannelIx → Role) : Byte :=
  packBits fun k => decide (role (channelOfBit k) = .gpioOut)

/-- `count()` of R106: the highest SENSOR index plus one (0 where there is none, which no reachable
state has: log 19). -/
def sensorCount (role : ChannelIx → Role) : Nat :=
  allChannels.foldl (fun n c => if role c = .sensor then c.val + 1 else n) 0

/-- The role table after `x[ch].role <- role`: the r' of R103. -/
def roleUpdate (role : ChannelIx → Role) (c : ChannelIx) (r : Role) : ChannelIx → Role :=
  fun i => if i = c then r else role i

/-- No GPIO channel below a SENSOR channel (R103, 10_state.md R24). -/
abbrev Contiguous (role : ChannelIx → Role) : Prop :=
  ∀ i j : ChannelIx, i < j → role j = .sensor → role i = .sensor

/-- `layout_ok(ch, role)` of R103. -/
def layoutOk (role : ChannelIx → Role) (c : ChannelIx) (r : Role) : Bool :=
  decide (Contiguous (roleUpdate role c r))

end Sys2Proof.Machine
end

