-- ==== Sys2Proof/Machine/Memory.lean ====
section
/-! DEFINITION. The chip's register space as a list of (register number, byte) cells in one
canonical form: register numbers strictly rising, each below 256. A register that is not listed has
no determined value (20_memory.md R57, U10: any value): reading it draws a free value, so that no
listed entry can equal what an unlisted register reads as. Log 3. -/

namespace Sys2Proof.Machine

/-- The byte listed for a register number, if any. -/
def Memory.read : List Host.Cell → Nat → Option Byte
  | [], _ => none
  | (b, v) :: rest, a => if a = b then some v else Memory.read rest a

/-- Lists a byte for a register number, in its place. -/
def Memory.write : List Host.Cell → Nat → Byte → List Host.Cell
  | [], a, v => [(a, v)]
  | (b, w) :: rest, a, v =>
    if a < b then (a, v) :: (b, w) :: rest
    else if a = b then (a, v) :: rest
    else (b, w) :: Memory.write rest a v

/-- Removes the entry of a register number: its value is no longer determined. -/
def Memory.forget (m : List Host.Cell) (a : Nat) : List Host.Cell :=
  m.filter fun cell => cell.1 ≠ a

/-- The canonical form. -/
abbrev Memory.wf (m : List Host.Cell) : Prop :=
  m.Pairwise (fun p q => p.1 < q.1) ∧ ∀ cell ∈ m, cell.1 < 256

end Sys2Proof.Machine
end

