-- ==== Sys2Proof/Machine/Transport.lean ====
section
/-! DEFINITION. The chip behind the transport: what a request does there (20_memory.md R51 to R53),
the side effects of writes (R59, R65, R68), and the words on the two ports between block and
transport (10_state.md R38). -/

namespace Sys2Proof.Machine

/-- A free value for one byte, a new one at each draw. Log 3. -/
def State.drawByte (s : State) : Byte × State :=
  (Config.chipByte s.draws, { s with draws := s.draws + 1 })

/-- The byte at a register number, as the chip answers it at this moment: the listed byte, or a
free value where none is listed (R51, R57). -/
def State.readByteAt (s : State) (a : Nat) : Byte × State :=
  match Memory.read s.regs a with
  | some v => (v, s)
  | none => s.drawByte

/-- `MemRead(reg, 1)` (R51). -/
def State.memRead8 (s : State) (reg : RegNo) : Byte × State := s.readByteAt reg.toNat

/-- `MemRead(reg, 2)` (R52): little-endian, the byte at `reg` in bits 7:0. The block uses it at
0x00 only; at 0xFF the second byte, for which there is no rule (R58), is a free value. -/
def State.memRead16 (s : State) (reg : RegNo) : BitVec 16 × State :=
  let lo := s.readByteAt reg.toNat
  let hi := lo.2.readByteAt (reg.toNat + 1)
  (hi.1 ++ lo.1, hi.2)

/-- The chip's own reset (R68, 70_reset_and_hazards.md R213): its registers return to their reset
values, of which only Config2's is given (R67), so every other register is undetermined; the output
latches get a free value. Log 15. -/
def State.resetChip (s : State) : State :=
  { s with
    regs := [(regConfig2.toNat, config2Reset)]
    outLatch := Config.chipByte s.draws
    draws := s.draws + 1 }

/-- A write to GPIO_SET, GPIO_CLR or GPIO_TOG acts on the output latches with every 1 it carries
(R65, G3) and changes the GPIO data register (R59), whose byte is then not determined. Log 14. -/
def State.driveLatches (s : State) (latch : Byte) : State :=
  { s with outLatch := latch, regs := Memory.forget s.regs regGpioDat.toNat }

/-- No electrode runs: the ECR holds 0 (R62, 70_reset_and_hazards.md R216). -/
abbrev State.Stopped (s : State) : Prop := Memory.read s.regs regEcr.toNat = some 0x00#8

/-- A register takes the byte written to it; but a register that needs the electrodes stopped (R62,
70_reset_and_hazards.md R225) is not determined after a write while they may run. Log 16. -/
def State.storeByte (s : State) (reg : RegNo) (v : Byte) : State :=
  { s with
    regs := if needsStop reg = true ∧ ¬ s.Stopped then Memory.forget s.regs reg.toNat
      else Memory.write s.regs reg.toNat v }

/-- `MemWrite(reg, 1, v)` as the chip performs it (R53): the byte is stored, then the side effects
of R59. -/
def State.memWrite8 (s : State) (reg : RegNo) (v : Byte) : State :=
  let stored := s.storeByte reg v
  if reg = regSoftReset ∧ v = softResetKey then stored.resetChip
  else if reg = regGpioSet then stored.driveLatches (s.outLatch ||| v)
  else if reg = regGpioClr then stored.driveLatches (s.outLatch &&& ~~~v)
  else if reg = regGpioTog then stored.driveLatches (s.outLatch ^^^ v)
  else stored

/-- What a request does at the chip, and the 16-bit read data of the answer (R51 to R53); an 8-bit
read answers in bits 7:0, a write answers no data. -/
def State.perform (s : State) : Request → BitVec 16 × State
  | .read8 _ reg => let r := s.memRead8 reg; (r.1.setWidth 16, r.2)
  | .read16 _ reg => s.memRead16 reg
  | .write8 _ reg v => (Config.noReadData, s.memWrite8 reg v)

/-- A request that the transport does not end with success: a write has reached the chip, or it has
not. -/
def State.land (s : State) (r : Request) (landed : Bool) : State :=
  match r with
  | .write8 _ reg v => if landed then s.memWrite8 reg v else s
  | .read8 _ _ | .read16 _ _ => s

/-- Whether a write that failed may have reached the chip. The write of GPIO_CTL1, S4 of PULLUP and
PULLDN, has not: its failure leaves "GPIO_CTL1 not" modified (41_gpio_bit_ops.md R128). Of every other
write R121 says that the chip's register is "as the chip left it", which the model reads as: it may
have. Log 11. -/
def Request.mayLand : Request → Bool
  | .write8 _ reg _ => decide (reg ≠ regGpioCtl1)
  | .read8 _ _ | .read16 _ _ => false

/-- A request that is answered with the error bit (R55); `landed` counts where the request may land
at all. -/
def State.performFailed (s : State) (r : Request) (landed : Bool) : State :=
  s.land r (landed && r.mayLand)

/-! ## The ports -/

/-- The `xp_req` word of an 8-bit read: kind 0 (10_state.md R38). -/
def XpRequest.read8 (device : BitVec 7) (reg : RegNo) : XpRequest := ⟨0#2, device, reg, none⟩

/-- The `xp_req` word of a 16-bit read: kind 1 (R38). -/
def XpRequest.read16 (device : BitVec 7) (reg : RegNo) : XpRequest := ⟨1#2, device, reg, none⟩

/-- The `xp_req` word of a write: kind 2 (R38). -/
def XpRequest.write8 (device : BitVec 7) (reg : RegNo) (v : Byte) : XpRequest :=
  ⟨2#2, device, reg, some v⟩

/-- A request as the `xp_req` port carries it (R38). -/
def Request.word : Request → XpRequest
  | .read8 device reg => .read8 device reg
  | .read16 device reg => .read16 device reg
  | .write8 device reg v => .write8 device reg v

/-- The request goes out on `xp_req` (R38). -/
def State.logRequest (s : State) (r : Request) : State := { s with xpOut := s.xpOut ++ [r.word] }

/-- What comes back on `xp_rsp` (R38), and the chip afterwards, when the transport ends the request
as `a` says (R55). -/
def State.chipAnswer (s : State) (r : Request) : Answer → XpAnswer × State
  | .ok => ({ error := false, readData := (s.perform r).1 }, (s.perform r).2)
  | .error landed => ({ error := true, readData := Config.noReadData }, s.performFailed r landed)

end Sys2Proof.Machine
end

