-- ==== Sys2Proof/Machine/Ops.lean ====
section
/-! DEFINITION. The shared operations of the block: responses and failures (30_encoding.md R82,
60_exceptions.md R180), `rst` and the other events (10_state.md R45, 00_scope.md R11), and the
sequencer that runs a command's micro-steps (R11, 10_state.md R40 to R42). -/

namespace Sys2Proof.Machine

/-! ## Ending a command -/

/-- The status codes of 30_encoding.md R83 other than OK. -/
inductive Status where
  | illegalOp
  | badChannel
  | badRole
  | sensorOnly
  | layout
  | wrongRole
  | busError
deriving DecidableEq, Repr

/-- The code of a status (R83). -/
def statusCode : Status → BitVec 4
  | .illegalOp => 1#4
  | .badChannel => 2#4
  | .badRole => 3#4
  | .sensorOnly => 4#4
  | .layout => 5#4
  | .wrongRole => 6#4
  | .busError => 7#4

/-- The block sends a response word and is idle (R82, 60_exceptions.md R180). -/
def State.send (s : State) (w : ResponseWord) : State :=
  { s with busy := none, rspOut := s.rspOut ++ [w] }

/-- `respond(d)`: status OK (R82). -/
def State.respond (s : State) (d : Mask12) : State := s.send (0#4 ++ d)

/-- `raise Reject(code)`: the one failure mechanism of the block (60_exceptions.md R180). Nothing is
saved and control goes nowhere (R193). -/
def State.reject (s : State) (c : Status) : State := s.send (statusCode c ++ 0#12)

/-! ## Events -/

/-- The state `rst` gives the block (10_state.md R45). A command in progress is abandoned without a
response; ports, chip and environment are not touched (70_reset_and_hazards.md R210, R213). -/
def State.resetBlock (s : State) : State :=
  { s with
    x := Vector.replicate 12 Channel.reset
    address := Config.busAddr
    useIRQ := false
    interrupted := false
    debounceDefault := Config.dbdReset
    busy := none }

/-- The request that has no answer yet. -/
def State.outstanding (s : State) : Option Request :=
  match s.busy with
  | some f => f.outstanding
  | none => none

/-- The event `rst` (R45, 70_reset_and_hazards.md R211): "A request already handed to the transport
may still complete at the chip; its answer is discarded." Log 12. -/
def State.rst (s : State) (landed : Bool) : State :=
  match s.outstanding with
  | some r => (s.land r landed).resetBlock
  | none => s.resetBlock

/-- One event (00_scope.md R11). -/
def State.applyEvent (s : State) : Event → State
  | .fireIrq => s.fireIrq
  | .rst landed => s.rst landed
  | .chipByte reg v => { s with regs := Memory.write s.regs reg.toNat v }
  | .busWrite reg v => s.memWrite8 reg v
  | .chipReset => s.resetChip
  | .setNow v => { s with now := v }

/-- The events of a slot, in order. -/
def State.applyEvents (s : State) (es : List Event) : State := es.foldl State.applyEvent s

/-- The environment's behaviour at the coming micro-step; a script that has ended is quiet. Log 2. -/
def State.nextSlot (s : State) : Slot := s.script.headD Slot.quiet

/-- The script after that micro-step. -/
def State.dropSlot (s : State) : State := { s with script := s.script.tail }

/-! ## Micro-steps -/

/-- `x[i].gpioOutputHigh <- 0` for all channels (40_channel_role_packer.md R107). -/
def State.clearLevels (s : State) : State :=
  { s with x := s.x.map fun (ch : Channel) => { ch with gpioOutputHigh := false } }

/-- `x[c].role <- r` (40_channel_role_packer.md R104). -/
def State.setRole (s : State) (c : ChannelIx) (r : Role) : State :=
  s.setChan c { s.chan c with role := r }

/-- The channel after TCHCH S3 with mask bit `b` and sample `t` (42_touch_detection.md R144,
R145). -/
def judgeChannel (ch : Channel) (b : Bool) (t : Time) : Channel :=
  if b then
    match ch.touched with
    | .touched => ch
    | .idle => { ch with touched := .touched, lastTouchTimestamp := t }
  else { ch with touched := .idle }

/-- The transport request a micro-step issues, if any (70_reset_and_hazards.md R238). -/
def opRequest (s : State) (f : InFlight) : MicroOp → Option Request
  | .writeEnable => some (.write8 s.address regGpioEn (packEn s.role))
  | .writeDirection => some (.write8 s.address regGpioDir (packDir s.role))
  | .writeElectrodes => some (.write8 s.address regEcr (ecrValue (sensorCount s.role)))
  | .clearOutputs => some (.write8 s.address regGpioClr 0xFF#8)
  | .readRegister reg => some (.read8 s.address reg)
  | .writeBit reg k b => some (.write8 s.address reg (withBit (f.held.setWidth 8) k b))
  | .readStatus => some (.read16 s.address regTouchStatus)
  | .assignRole _ _ | .takeStatus | .takeLatch | .judgeTouch _ | .cacheLevel _ => none

/-- What a micro-step does to the block's registers once its request, if any, is answered. -/
def opEffect (s : State) (f : InFlight) : MicroOp → State
  | .assignRole c r => s.setRole c r
  | .clearOutputs => s.clearLevels
  | .takeStatus => s.clearInterrupted
  | .takeLatch => s.clearInterrupted
  | .judgeTouch c => s.setChan c (judgeChannel (s.chan c) (f.data.getLsbD c.val) f.t)
  | .cacheLevel c =>
    s.setChan c { s.chan c with gpioOutputHigh := f.held.getLsbD (gpioBit c).val }
  | .writeEnable | .writeDirection | .writeElectrodes | .readRegister _ | .writeBit _ _ _
  | .readStatus => s

/-- What a micro-step leaves in the sequencer; `d` is the read data of its answer. -/
def opSequencer (s : State) (f : InFlight) (d : BitVec 16) : MicroOp → InFlight
  | .readRegister _ => { f with held := d }
  | .readStatus => { f with held := d }
  | .takeStatus => { f with data := f.held.setWidth 12 }
  | .takeLatch => { f with data := s.irqAggregate }
  | .judgeTouch c => { f with data := bit12 (f.data.getLsbD c.val) }
  | .cacheLevel c => { f with data := bit12 (f.held.getLsbD (gpioBit c).val) }
  | .assignRole _ _ | .writeEnable | .writeDirection | .writeElectrodes | .clearOutputs
  | .writeBit _ _ _ => f

/-- The end of a micro-step: its effect, and the sequencer moves on. -/
def finishOp (s : State) (f : InFlight) (op : MicroOp) (rest : List MicroOp) (d : BitVec 16) :
    State :=
  { opEffect s f op with
    busy := some { opSequencer s f d op with todo := rest, outstanding := none } }

/-- The block takes the word on `xp_rsp` (10_state.md R38, 20_memory.md R55): without its error bit
the micro-step ends; with it the command ends with BUS_ERROR, without rollback or retry, and the read
data is ignored. -/
def takeAnswer (s : State) (f : InFlight) (op : MicroOp) (rest : List MicroOp) (w : XpAnswer) :
    State :=
  match w.error with
  | false => finishOp s f op rest w.readData
  | true => s.reject .busError

/-- The transport ends the request of a micro-step as `a` says, and the block takes the answer. A
failed write of S2 to S5 of SETTYPE, or of S2 of a read-modify-write, may have landed (the model's
reading of 41_gpio_bit_ops.md R121, log 11); that of S4 of PULLUP and PULLDN has not (R128). A SETTYPE
that ends here keeps the cached levels (40_channel_role_packer.md R110), so an output may keep a 1
against R26's words: log 18. -/
def answerOp (s : State) (f : InFlight) (op : MicroOp) (rest : List MicroOp) (r : Request)
    (a : Answer) : State :=
  takeAnswer (s.chipAnswer r a).2 f op rest (s.chipAnswer r a).1

/-- One micro-step of the command in progress (00_scope.md R11): the events before it; then, unless
one of them was `rst`, the micro-step itself. A request without an answer leaves the block waiting
(20_memory.md R56). -/
def microStep (s : State) (f : InFlight) (op : MicroOp) (rest : List MicroOp) : State :=
  let s' := s.dropSlot.applyEvents s.nextSlot.events
  match s'.busy with
  | none => s'
  | some _ =>
    match opRequest s' f op with
    | none => finishOp s' f op rest 0#16
    | some r =>
      match s.nextSlot.answer with
      | some a => answerOp (s'.logRequest r) f op rest r a
      | none => { s'.logRequest r with busy := some { f with outstanding := some r } }

/-- Runs at most `n` micro-steps of the command in progress, and its response: until the block is
idle or waits for the transport. -/
def runMicro : Nat → State → State
  | 0, s => s
  | n + 1, s =>
    match s.busy with
    | none => s
    | some f =>
      match f.outstanding with
      | some _ => s
      | none =>
        match f.todo with
        | [] => s.respond f.data
        | op :: rest => runMicro n (microStep s f op rest)

/-- Runs the command in progress as far as it goes. -/
def State.run (s : State) : State :=
  match s.busy with
  | none => s
  | some f => runMicro (f.todo.length + 1) s

/-- The end of S0: the command has been accepted and its micro-steps are these; `t` is the sample of
`now` (10_state.md R36). -/
def State.accept (s : State) (ops : List MicroOp) : State :=
  { s with busy := some { todo := ops, t := s.now, held := 0#16, data := 0#12, outstanding := none } }

/-- Accepts the command and runs its micro-steps. -/
def State.start (s : State) (ops : List MicroOp) : State := (s.accept ops).run

/-- The first check of every command with a `ch` operand (60_exceptions.md R182). -/
def State.withChannel (s : State) (ch : BitVec 4) (k : ChannelIx → State) : State :=
  match channelOf ch with
  | none => s.reject .badChannel
  | some c => k c

/-- The micro-steps of AGG (42_touch_detection.md R140), by the mode in force. -/
def aggOps (s : State) : List MicroOp :=
  if s.useIRQ then [.takeLatch] else [.readStatus, .takeStatus]

/-- The micro-steps of `rmw(reg, k, b)` (41_gpio_bit_ops.md R121). -/
def rmwOps (reg : RegNo) (k : GpioBit) (b : Bool) : List MicroOp :=
  [.readRegister reg, .writeBit reg k b]

end Sys2Proof.Machine
end

