-- ==== Sys2Proof/Machine/Debounce.lean ====
section
/-! DEFINITION. Debounce configuration: SETDBD, SETDBC, CLRDBC (44_debounce_config.md). -/

namespace Sys2Proof.Machine

/-- SETDBD (R170). -/
def execSetdbd (v : Millis) (s : State) : Host.Outcome State Fault Refusal :=
  .next ({ s with debounceDefault := v }.respond 0#12)

/-- SETDBC (R171). -/
def execSetdbc (ch : BitVec 4) (v : Millis) (s : State) : Host.Outcome State Fault Refusal :=
  .next (s.withChannel ch fun c =>
    (s.setChan c { s.chan c with debounce := v, dbv := true }).respond 0#12)

/-- CLRDBC (R172). -/
def execClrdbc (ch : BitVec 4) (s : State) : Host.Outcome State Fault Refusal :=
  .next (s.withChannel ch fun c => (s.setChan c { s.chan c with dbv := false }).respond 0#12)

end Sys2Proof.Machine
end

