-- ==== Sys2Proof/Machine/Gpio.lean ====
section
/-! DEFINITION. GPIO bit operations: PULLUP, PULLDN, GPIOEN, GPIOST (41_gpio_bit_ops.md). -/

namespace Sys2Proof.Machine

/-- PULLUP and PULLDN once the channel is known (R122, R123): only an input; CTL0 bit k set, then
CTL1 bit k set for a pull-up and cleared for a pull-down. -/
def pullChannel (s : State) (up : Bool) (c : ChannelIx) : State :=
  if s.role c = .gpioIn then
    s.start (rmwOps regGpioCtl0 (gpioBit c) true ++ rmwOps regGpioCtl1 (gpioBit c) up)
  else s.reject .wrongRole

/-- PULLUP (R122). -/
def execPullup (ch : BitVec 4) (s : State) : Host.Outcome State Fault Refusal :=
  .next (s.withChannel ch (pullChannel s true))

/-- PULLDN (R123). -/
def execPulldn (ch : BitVec 4) (s : State) : Host.Outcome State Fault Refusal :=
  .next (s.withChannel ch (pullChannel s false))

/-- GPIOEN once the channel is known (R124); a SENSOR channel is ignored (R125). -/
def enableChannel (s : State) (en : Bool) (c : ChannelIx) : State :=
  if s.role c = .sensor then s.respond 0#12
  else s.start (rmwOps regGpioEn (gpioBit c) en)

/-- GPIOEN (R124). -/
def execGpioen (ch : BitVec 4) (en : Bool) (s : State) : Host.Outcome State Fault Refusal :=
  .next (s.withChannel ch (enableChannel s en))

/-- GPIOST once the channel is known (R126): a cached level for an output, a live read for an
input, WRONG_ROLE for a SENSOR. The cached level of an output is 0 as R26 says, but after a SETTYPE
that ended with BUS_ERROR (40_channel_role_packer.md R110): log 18. -/
def statusChannel (s : State) (c : ChannelIx) : State :=
  match s.role c with
  | .sensor => s.reject .wrongRole
  | .gpioOut => s.respond (bit12 (s.chan c).gpioOutputHigh)
  | .gpioIn => s.start [.readRegister regGpioDat, .cacheLevel c]

/-- GPIOST (R126). -/
def execGpiost (ch : BitVec 4) (s : State) : Host.Outcome State Fault Refusal :=
  .next (s.withChannel ch (statusChannel s))

end Sys2Proof.Machine
end

