-- ==== Sys2Proof/Machine/Interrupt.lean ====
section
/-! DEFINITION. Interrupt plumbing: USEIRQ (43_interrupt_plumbing.md). -/

namespace Sys2Proof.Machine

/-- USEIRQ (R160). -/
def execUseirq (en : Bool) (s : State) : Host.Outcome State Fault Refusal :=
  .next ((s.setUseIRQ en).respond 0#12)

end Sys2Proof.Machine
end

