-- ==== Sys2Proof/Machine/RolePacker.lean ====
section
/-! DEFINITION. The channel-role register packer: SETTYPE (40_channel_role_packer.md). -/

namespace Sys2Proof.Machine

/-- The micro-steps S1 to S5 of an accepted SETTYPE (R100). -/
def settypeOps (c : ChannelIx) (r : Role) : List MicroOp :=
  [.assignRole c r, .writeEnable, .writeDirection, .writeElectrodes, .clearOutputs]

/-- SETTYPE once its channel is known: the checks of S0 in their order (R100 to R103,
60_exceptions.md R190), then S1 to S5. -/
def assignType (s : State) (role : BitVec 2) (c : ChannelIx) : State :=
  match roleOf role with
  | none => s.reject .badRole
  | some r =>
    if c.val < 4 ∧ r ≠ .sensor then s.reject .sensorOnly
    else if layoutOk s.role c r = false then s.reject .layout
    else s.start (settypeOps c r)

/-- SETTYPE (R100). -/
def execSettype (ch : BitVec 4) (role : BitVec 2) (s : State) : Host.Outcome State Fault Refusal :=
  .next (s.withChannel ch (assignType s role))

end Sys2Proof.Machine
end

