-- ==== Sys2Proof/Machine/Touch.lean ====
section
/-! DEFINITION. Touch detection: TCHALL and TCHCH (42_touch_detection.md). -/

namespace Sys2Proof.Machine

/-- TCHALL (R141): the aggregate. -/
def execTchall (s : State) : Host.Outcome State Fault Refusal :=
  .next (s.start (aggOps s))

/-- TCHCH once its channel is known (R145 S0). An output answers 0 (R146); so does an idle channel
whose window has not elapsed (R147); otherwise AGG, then S3. -/
def queryChannel (s : State) (c : ChannelIx) : State :=
  if s.role c = .gpioOut then s.respond 0#12
  else if (s.chan c).touched = .idle ∧ s.elapsed c s.now = false then s.respond 0#12
  else s.start (aggOps s ++ [.judgeTouch c])

/-- TCHCH (R145). -/
def execTchch (ch : BitVec 4) (s : State) : Host.Outcome State Fault Refusal :=
  .next (s.withChannel ch (queryChannel s))

end Sys2Proof.Machine
end

