-- ==== Sys2Proof/Machine/Dispatch.lean ====
section
/-! DEFINITION. One arm per command: the direct call of its meaning. -/

namespace Sys2Proof.Machine

def exec (i : Instr) (s : State) : Host.Outcome State Fault Refusal :=
  match i with
  | .tchall => Sys2Proof.Machine.execTchall s
  | .tchch ch => Sys2Proof.Machine.execTchch ch s
  | .useirq en => Sys2Proof.Machine.execUseirq en s
  | .settype ch role => Sys2Proof.Machine.execSettype ch role s
  | .setdbd v => Sys2Proof.Machine.execSetdbd v s
  | .setdbc ch v => Sys2Proof.Machine.execSetdbc ch v s
  | .clrdbc ch => Sys2Proof.Machine.execClrdbc ch s
  | .pullup ch => Sys2Proof.Machine.execPullup ch s
  | .pulldn ch => Sys2Proof.Machine.execPulldn ch s
  | .gpioen ch en => Sys2Proof.Machine.execGpioen ch en s
  | .gpiost ch => Sys2Proof.Machine.execGpiost ch s

end Sys2Proof.Machine
end

