-- ==== Sys2Proof/WellFormed.lean ====
section
/-! DEFINITION. The operand values that 30_encoding.md R81 calls legal. Every value of the operand
widths has an encoding; one that is not legal decodes, and the command is refused by value with
BAD_CHANNEL or BAD_ROLE (R86), which is its meaning and is modelled. Log 27. -/

namespace Sys2Proof

/-- `ch` is legal: 0..11 (30_encoding.md R81). -/
abbrev channelLegal (i : Instr) : Bool :=
  match i.channel? with
  | none => true
  | some ch => decide (ch.toNat < 12)

/-- `role` is legal: SENSOR, GPIO_IN or GPIO_OUT (30_encoding.md R81). -/
abbrev roleLegal (i : Instr) : Bool :=
  match i.role? with
  | none => true
  | some r => decide (r ≠ 3#2)

/-- Every operand of the command is legal. -/
abbrev WellFormed (i : Instr) : Prop := channelLegal i = true ∧ roleLegal i = true

end Sys2Proof
end

