-- ==== Sys2Proof/Decode.lean ====
section
/-! DEFINITION. Command words: the one format CMD24 of 30_encoding.md R80, the opcode map R84, the
illegal words R85. The decoder is total on 24-bit words and reads no state (R90); the encoder is
written from the same rows. -/

namespace Sys2Proof

/-- Why a word is illegal (30_encoding.md R85). Both are answered with ILLEGAL_OP. -/
inductive DecodeError where
  /-- `op` is 0x0 or 0xC..0xF. -/
  | unknownOpcode (op : BitVec 4)
  /-- A legal `op` whose reserved field is not zero. -/
  | reservedField (op : BitVec 4)
deriving DecidableEq, Repr

/-- `op` = cmd[23:20] (R80). -/
def opField (w : CommandWord) : BitVec 4 := w.extractLsb' 20 4

/-- `ch` = cmd[19:16] (R80). -/
def chField (w : CommandWord) : BitVec 4 := w.extractLsb' 16 4

/-- `imm` = cmd[15:0] (R80). -/
def immField (w : CommandWord) : BitVec 16 := w.extractLsb' 0 16

/-- A command word from its three fields (R80). -/
def cmdWord (op ch : BitVec 4) (imm : BitVec 16) : CommandWord := (op ++ ch) ++ imm

/-- `.ok i` where the reserved fields are zero (R85). -/
def rowOf (op : BitVec 4) (reservedZero : Bool) (i : Instr) : Except DecodeError Instr :=
  if reservedZero then .ok i else .error (.reservedField op)

/-- The decoder (30_encoding.md R84, R85). -/
def decode (w : CommandWord) : Except DecodeError Instr :=
  let op := opField w
  let ch := chField w
  let imm := immField w
  match op.toNat with
  | 0x1 => rowOf op (ch = 0#4 && imm = 0#16) .tchall
  | 0x2 => rowOf op (imm = 0#16) (.tchch ch)
  | 0x3 => rowOf op (ch = 0#4 && imm.extractLsb' 1 15 = 0#15) (.useirq (imm.getLsbD 0))
  | 0x4 => rowOf op (imm.extractLsb' 2 14 = 0#14) (.settype ch (imm.extractLsb' 0 2))
  | 0x5 => rowOf op (ch = 0#4) (.setdbd imm)
  | 0x6 => rowOf op true (.setdbc ch imm)
  | 0x7 => rowOf op (imm = 0#16) (.clrdbc ch)
  | 0x8 => rowOf op (imm = 0#16) (.pullup ch)
  | 0x9 => rowOf op (imm = 0#16) (.pulldn ch)
  | 0xA => rowOf op (imm.extractLsb' 1 15 = 0#15) (.gpioen ch (imm.getLsbD 0))
  | 0xB => rowOf op (imm = 0#16) (.gpiost ch)
  | _ => .error (.unknownOpcode op)

/-- The encoder (30_encoding.md R84). -/
def encode : Instr → CommandWord
  | .tchall => cmdWord 0x1#4 0#4 0#16
  | .tchch ch => cmdWord 0x2#4 ch 0#16
  | .useirq en => cmdWord 0x3#4 0#4 (0#15 ++ BitVec.ofBool en)
  | .settype ch role => cmdWord 0x4#4 ch (0#14 ++ role)
  | .setdbd v => cmdWord 0x5#4 0#4 v
  | .setdbc ch v => cmdWord 0x6#4 ch v
  | .clrdbc ch => cmdWord 0x7#4 ch 0#16
  | .pullup ch => cmdWord 0x8#4 ch 0#16
  | .pulldn ch => cmdWord 0x9#4 ch 0#16
  | .gpioen ch en => cmdWord 0xA#4 ch (0#15 ++ BitVec.ofBool en)
  | .gpiost ch => cmdWord 0xB#4 ch 0#16

/-- A row of the opcode map: a word w selects it when `w & mask = match` (R84). -/
structure OpcodeRow where
  mnemonic : String
  matchBits : CommandWord
  maskBits : CommandWord
deriving DecidableEq, Repr

/-- The word selects the row (R84). -/
abbrev OpcodeRow.selects (r : OpcodeRow) (w : CommandWord) : Prop := w &&& r.maskBits = r.matchBits

/-- The opcode map of 30_encoding.md R84, row by row. -/
def opcodeTable : List OpcodeRow :=
  [ ⟨"TCHALL", 0x100000#24, 0xFFFFFF#24⟩,
    ⟨"TCHCH", 0x200000#24, 0xF0FFFF#24⟩,
    ⟨"USEIRQ", 0x300000#24, 0xFFFFFE#24⟩,
    ⟨"SETTYPE", 0x400000#24, 0xF0FFFC#24⟩,
    ⟨"SETDBD", 0x500000#24, 0xFF0000#24⟩,
    ⟨"SETDBC", 0x600000#24, 0xF00000#24⟩,
    ⟨"CLRDBC", 0x700000#24, 0xF0FFFF#24⟩,
    ⟨"PULLUP", 0x800000#24, 0xF0FFFF#24⟩,
    ⟨"PULLDN", 0x900000#24, 0xF0FFFF#24⟩,
    ⟨"GPIOEN", 0xA00000#24, 0xF0FFFE#24⟩,
    ⟨"GPIOST", 0xB00000#24, 0xF0FFFF#24⟩ ]

/-- The instruction the decoder reads from the `nbits`-bit word `w` of the opcode table. A command
is one 24-bit word on the `cmd` port, so the table's number is the word itself. -/
def decodeTableWord (nbits w : Nat) : Option Instr :=
  if nbits ≤ 24 ∧ w < 2 ^ nbits then (decode (BitVec.ofNat 24 w)).toOption else none

end Sys2Proof
end

