-- ==== Sys2Proof/Machine/Fetch.lean ====
section
/-! DEFINITION. What happens between micro-steps: which input moves next (10_state.md R38, R41), and
how a command word is placed on the port. The block fetches nothing (20_memory.md R73): the host
presents the words. Log 1. -/

namespace Sys2Proof.Machine

/-- The first input that is not a command, taken out of its place: while the block is busy the
`cmd` handshake does not complete, and everything else goes on (R41). Log 22. -/
def takeNonCommand : List Input → Option (Input × List Input)
  | [] => none
  | .command w :: rest => (takeNonCommand rest).map fun p => (p.1, .command w :: p.2)
  | .event e :: rest => some (.event e, rest)
  | .answer a :: rest => some (.answer a, rest)

/-- A late answer of the transport: it completes the micro-step that waits for it and the command
goes on. An answer nobody waits for is discarded (70_reset_and_hazards.md R211). Log 23. -/
def State.lateAnswer (s : State) (a : Answer) : State :=
  match s.busy with
  | none => s
  | some f =>
    match f.outstanding, f.todo with
    | some r, op :: rest => (answerOp s f op rest r a).run
    | some _, [] => s
    | none, _ => s

/-- An input other than a command, or a command while the block is busy, which waits. -/
def State.absorb (s : State) : Input → State
  | .command _ => s
  | .event e => s.applyEvent e
  | .answer a => s.lateAnswer a

/-- What moves next. -/
inductive Move where
  /-- The block itself, or the environment, as far as `s`. -/
  | settled (s : State)
  /-- The block accepts a command word. -/
  | command (w : CommandWord) (s : State)
deriving DecidableEq, Repr

/-- A busy block: a command in progress that does not wait goes on; one that waits for the transport
stays until an answer or another event comes (20_memory.md R56). Log 30. -/
def busyMove (s : State) (f : InFlight) : Move :=
  match f.outstanding with
  | none => .settled s.run
  | some _ =>
    match takeNonCommand s.inputs with
    | none => .settled s
    | some (i, rest) => .settled ({ s with inputs := rest }.absorb i)

/-- The next move of the machine. An idle block with nothing to do stays as it is (R41: "there is no
background task or event loop"). -/
def nextMove (s : State) : Move :=
  match s.busy with
  | some f => busyMove s f
  | none =>
    match s.inputs with
    | [] => .settled s
    | .command w :: rest => .command w { s with inputs := rest }
    | .event e :: rest => .settled ({ s with inputs := rest }.absorb (.event e))
    | .answer a :: rest => .settled ({ s with inputs := rest }.absorb (.answer a))

/-- An illegal word (30_encoding.md R85, 60_exceptions.md R181): no effect but the response. -/
def rejectIllegal (s : State) : State := s.reject .illegalOp

/-- The block is idle and the host presents `w` on `cmd`. -/
def State.present (s : State) (w : CommandWord) : State :=
  { s with busy := none, inputs := .command w :: s.inputs }

/-- The command word of an `nbits`-bit number of the opcode table. -/
def tableWord (nbits w : Nat) : CommandWord := BitVec.ofNat 24 (w % 2 ^ nbits)

end Sys2Proof.Machine
end

