-- ==== Sys2Proof/Machine/Step.lean ====
section
/-! DEFINITION. One step of the machine: a whole command, with everything that happens inside it, or
one thing that happens between commands. -/

namespace Sys2Proof.Machine

/-- One step. A command word is decoded and executed; an illegal word is answered ILLEGAL_OP
(30_encoding.md R85). -/
def step (s : State) : Host.Outcome State Fault Refusal :=
  match nextMove s with
  | .settled s' => .next s'
  | .command w s' =>
    match decode w with
    | .ok i => exec i s'
    | .error _ => .next (rejectIllegal s')

/-- The host presents the opcode table's word on the `cmd` port of the idle block. Log 1. -/
def State.withFetchWord (s : State) (nbits w : Nat) : State := s.present (tableWord nbits w)

end Sys2Proof.Machine
end

