-- ==== Sys2Proof/Machine/Boot.lean ====
section
/-! DEFINITION. The host's boot sequence (70_reset_and_hazards.md R214 to R222), which the block
takes no part in: the host's writes over the transport, the readback, and `rst`. -/

namespace Sys2Proof.Machine

/-- The writes of `setThresholds(touch, release)` (R218): 24 of them. Their order is not given (N4);
the model's is channel by channel. Log 26. -/
def thresholdWrites (touch release : Byte) : List (RegNo × Byte) :=
  allChannels.flatMap fun i => [(regTouchThreshold i, touch), (regReleaseThreshold i, release)]

/-- Steps 1 and 2 (R215, R216): soft reset, then no electrode. -/
def bootOpening : List (RegNo × Byte) := [(regSoftReset, softResetKey), (regEcr, 0x00#8)]

/-- The registers step 5 may program (R219, there inferred from the purposes in the map): 0x2B to
0x35, Global debounce 0x5B, Config1 0x5C and Config2 0x5D. -/
def batteryRegister (reg : RegNo) : Bool :=
  decide ((0x2B ≤ reg.toNat ∧ reg.toNat ≤ 0x35) ∨ (0x5B ≤ reg.toNat ∧ reg.toNat ≤ 0x5D))

/-- Steps 4 to 6 (R218 to R220): thresholds 12 and 6, the battery of step 5, then all 12 electrodes
with the block's own ECR_HI. The battery's registers and constants, which the spec does not give
(R219, N3), are the argument. Log 26. -/
def bootProgramming (battery : List (RegNo × Byte)) : List (RegNo × Byte) :=
  thresholdWrites 12#8 6#8 ++ battery ++ [(regEcr, ecrValue 12)]

/-- Step 3 (R217): the readback of Config2 equals its expected reset value. -/
def bootSucceeds (config2 : Byte) : Bool := decide (config2 = config2Reset)

/-- All the host's writes, given the Config2 readback (R222). -/
def bootWrites (battery : List (RegNo × Byte)) (config2 : Byte) : List (RegNo × Byte) :=
  bootOpening ++ if bootSucceeds config2 then bootProgramming battery else []

/-- Writes of the host over the transport, in order (20_memory.md R71). -/
def State.busWrites (s : State) (ws : List (RegNo × Byte)) : State :=
  ws.foldl (fun s w => s.memWrite8 w.1 w.2) s

/-- Steps 1 to 3: the two opening writes, what happens before the readback (`es`: the chip may answer
otherwise than after its reset), and the readback of Config2. -/
def State.bootReadback (s : State) (es : List Event) : Byte × State :=
  ((s.busWrites bootOpening).applyEvents es).memRead8 regConfig2

/-- The whole sequence: whether it succeeded, and the state it leaves. Step 7 applies `rst` (R221);
after a failure nothing more is written (R217). -/
def State.hostBoot (s : State) (battery : List (RegNo × Byte)) (es : List Event) : Bool × State :=
  let readback := s.bootReadback es
  if bootSucceeds readback.1 then
    (true, (readback.2.busWrites (bootProgramming battery)).rst false)
  else (false, readback.2)

end Sys2Proof.Machine
end

