-- ==== Sys2Proof/Safety.lean ====
section
/-! DEFINITION. What counts as a safe state, and the conditions on the environment that statements
use. -/

namespace Sys2Proof.Machine

/-- Channels 0 to 3 are SENSOR (10_state.md R21). -/
abbrev LowSensors (role : ChannelIx → Role) : Prop :=
  ∀ c : ChannelIx, c.val < 4 → role c = .sensor

/-- A busy block waits for the answer to the request of its next micro-step. It has no role left to
assign (SETTYPE S1 issues no request), so that the role table is settled whenever a step ends. If it
has a touch to judge it runs a TCHCH that waits on its status read with the gate passed
(42_touch_detection.md R145); if it has a level to cache it runs a GPIOST that waits on the read of
an input (41_gpio_bit_ops.md R126). -/
def State.WaitsForTransport (s : State) : Prop :=
  ∀ f, s.busy = some f →
    (∃ r op rest, f.outstanding = some r ∧ f.todo = op :: rest ∧ opRequest s f op = some r) ∧
      (∀ c r, MicroOp.assignRole c r ∉ f.todo) ∧
      (∀ c, MicroOp.judgeTouch c ∈ f.todo →
        f.todo = [.readStatus, .takeStatus, .judgeTouch c] ∧
          ((s.chan c).touched = .touched ∨ s.elapsed c f.t = true)) ∧
      ∀ c, MicroOp.cacheLevel c ∈ f.todo →
        f.todo = [.readRegister regGpioDat, .cacheLevel c] ∧ s.role c = .gpioIn

/-- The invariant of the machine between steps: the contiguous layout (10_state.md R24), the
sensor-only channels (R21), the constant bus address (R30), the canonical form of the chip's
registers, and a sequencer that is idle or waits for the transport (R41, 20_memory.md R56). -/
def State.Inv (s : State) : Prop :=
  Contiguous s.role ∧ LowSensors s.role ∧ s.address = Config.busAddr ∧ Memory.wf s.regs ∧
    s.WaitsForTransport

/-- The input that the next step takes is `rst`: the first one of an idle block, the first one that is
no command of a busy one. -/
def State.RstComes (s : State) : Prop :=
  ∃ landed rest,
    s.busy = none ∧ s.inputs = .event (.rst landed) :: rest ∨
      s.busy ≠ none ∧ takeNonCommand s.inputs = some (.event (.rst landed), rest)

/-- Every output reads 0 (10_state.md R26), or a SETTYPE is under way that will clear the cached
levels (40_channel_role_packer.md R107). -/
def State.OutputsReadLow (s : State) : Prop :=
  (∀ c, s.role c = .gpioOut → (s.chan c).gpioOutputHigh = false) ∨
    ∃ f, s.busy = some f ∧ MicroOp.clearOutputs ∈ f.todo

/-- The environment is quiet at the next `n` micro-steps: no event, and every request is answered
without error. A script that has ended is quiet. -/
def State.QuietFor (s : State) (n : Nat) : Prop := ∀ slot ∈ s.script.take n, slot = Slot.quiet

/-- The chip as the boot sequence leaves it, and a block just reset (70_reset_and_hazards.md R212,
R220). -/
def State.Booted (s : State) : Prop :=
  Memory.read s.regs regEcr.toNat = some (ecrValue 12) ∧ ∀ c, s.chan c = Channel.reset

/-- The outcome is a next state: no fault, no refusal. -/
def Proceeds (o : Host.Outcome State Fault Refusal) : Prop := ∃ t, o = .next t

/-- The `ch` operand that selects a channel (30_encoding.md R81). -/
def channelOperand (c : ChannelIx) : BitVec 4 := BitVec.ofNat 4 c.val

/-- The command words among the inputs, in order. -/
def commandWords : List Input → List CommandWord
  | [] => []
  | .command w :: rest => w :: commandWords rest
  | .event _ :: rest => commandWords rest
  | .answer _ :: rest => commandWords rest

/-- No `rst` falls inside a command. -/
def State.NoRstInside (s : State) : Prop := ∀ slot ∈ s.script, ∀ b, Event.rst b ∉ slot.events

/-- Inside a command only FIREIRQ happens and time passes; the transport may answer as it likes. -/
def State.ChipStill (s : State) : Prop :=
  ∀ slot ∈ s.script, ∀ e ∈ slot.events, e = .fireIrq ∨ ∃ v, e = .setNow v

/-- The four requests of an accepted SETTYPE that leaves the role table `role`, in their order
(40_channel_role_packer.md R100). -/
def settypeRequests (address : BitVec 7) (role : ChannelIx → Role) : List Request :=
  [ .write8 address 0x77#8 (packEn role),
    .write8 address 0x76#8 (packDir role),
    .write8 address 0x5E#8 (Config.ecrHi ++ BitVec.ofNat 4 (sensorCount role)),
    .write8 address 0x79#8 0xFF#8 ]

/-- The chip after requests that were answered without error, in order. -/
def State.performAll (s : State) (rs : List Request) : State :=
  rs.foldl (fun s r => (s.perform r).2) s

/-- SETTYPE passes its checks (40_channel_role_packer.md R100 to R103). -/
def settypeAccepted (s : State) (c : ChannelIx) (r : Role) : Prop :=
  (c.val < 4 → r = .sensor) ∧ Contiguous (roleUpdate s.role c r)

/-- TCHCH evaluates AGG (42_touch_detection.md R145): the channel is no output, and it is TOUCHED or
its window has elapsed. -/
def gatePasses (s : State) (c : ChannelIx) : Prop :=
  s.role c ≠ .gpioOut ∧ ((s.chan c).touched = .touched ∨ s.elapsed c s.now = true)

/-- The number of transport requests of a command that is not cut short
(70_reset_and_hazards.md R238). -/
def requestCount (s : State) (i : Instr) : Nat :=
  let channel := i.channel?.bind channelOf
  let agg := if s.useIRQ then 0 else 1
  match i, channel with
  | .tchall, _ => agg
  | .tchch _, some c =>
    if s.role c = .gpioOut ∨ ((s.chan c).touched = .idle ∧ s.elapsed c s.now = false) then 0
    else agg
  | .settype _ role, some c =>
    match roleOf role with
    | some r => if (c.val < 4 ∧ r ≠ .sensor) ∨ layoutOk s.role c r = false then 0 else 4
    | none => 0
  | .pullup _, some c => if s.role c = .gpioIn then 4 else 0
  | .pulldn _, some c => if s.role c = .gpioIn then 4 else 0
  | .gpioen _ _, some c => if s.role c = .sensor then 0 else 2
  | .gpiost _, some c => if s.role c = .gpioIn then 1 else 0
  | .useirq _, _ => 0
  | .setdbd _, _ => 0
  | .setdbc _ _, _ => 0
  | .clrdbc _, _ => 0
  | .tchch _, none => 0
  | .settype _ _, none => 0
  | .pullup _, none => 0
  | .pulldn _, none => 0
  | .gpioen _ _, none => 0
  | .gpiost _, none => 0

/-- An event that sets the interrupt latch (43_interrupt_plumbing.md R161). -/
def FiresIn (s : State) : Prop :=
  Input.event .fireIrq ∈ s.inputs ∨ ∃ slot ∈ s.script, Event.fireIrq ∈ slot.events

end Sys2Proof.Machine
end

