-- ==== Sys2Proof/Certificates/Slice0/Obligations.lean ====
section
/-! DEFINITION. The statements for the provers, from the numbered rules of spec/. "Quiet" is
`State.QuietFor`: at the micro-steps the command takes no event happens and every request is
answered without error. An equation `t = { s with … }` says at once what changes and that nothing
else does. -/

open Sys2Proof Sys2Proof.Machine

/-! ## Encoding -/

/-- Every instruction, with every operand at every value its field admits, decodes from its own
word (30_encoding.md R80, R81, R84). -/
def Obligations.EncodedInstructionsDecode : Prop :=
  ∀ i : Instr, decode (encode i) = .ok i

/-- A word that decodes is the encoding of what it decodes to: no bit of it is ignored
(30_encoding.md R84, R85: a reserved field is zero). -/
def Obligations.DecodedWordsReencode : Prop :=
  ∀ (w : CommandWord) (i : Instr), decode w = .ok i → encode i = w

/-- The decoder is the opcode map: a word selects a row when `w & mask = match`, and decodes to an
instruction of that row (30_encoding.md R84). -/
def Obligations.DecoderFollowsOpcodeMap : Prop :=
  ∀ (w : CommandWord) (m : String),
    (∃ i, decode w = .ok i ∧ i.mnemonic = m) ↔ ∃ row ∈ opcodeTable, row.mnemonic = m ∧ row.selects w

/-- Every word selects exactly one row or is illegal (30_encoding.md R90). -/
def Obligations.WordSelectsOneRowOrIsIllegal : Prop :=
  ∀ w : CommandWord,
    ((∃ i, decode w = .ok i) ∧ ∃ row ∈ opcodeTable, row.selects w ∧
      ∀ other ∈ opcodeTable, other.selects w → other = row) ∨
    ((∃ e, decode w = .error e) ∧ ∀ row ∈ opcodeTable, ¬ row.selects w)

/-- Words written out from the encodings of 30_encoding.md decode as they should. -/
def Obligations.SpecWordsDecode : Prop :=
  decode 0x100000#24 = .ok .tchall ∧ decode 0x250000#24 = .ok (.tchch 5#4) ∧
    decode 0x300001#24 = .ok (.useirq true) ∧ decode 0x4B0002#24 = .ok (.settype 11#4 2#2) ∧
    decode 0x640032#24 = .ok (.setdbc 4#4 50#16) ∧ decode 0xA90001#24 = .ok (.gpioen 9#4 true)

/-! ## The step, the command port, failures -/

/-- An idle block that is presented a word runs the instruction the word decodes to; the word leaves
the port and nothing else is added (10_state.md R40, R41). -/
def Obligations.StepRunsDecodedInstruction : Prop :=
  ∀ (s : State) (w : CommandWord) (rest : List Input) (i : Instr),
    s.busy = none → s.inputs = .command w :: rest → decode w = .ok i →
      step s = exec i { s with inputs := rest }

/-- A word that matches no row of the opcode map is accepted, changes no state, issues no request and
is answered ILLEGAL_OP with data 0 (30_encoding.md R85, 60_exceptions.md R181). -/
def Obligations.IllegalWordIsAnswered : Prop :=
  ∀ (s : State) (w : CommandWord) (rest : List Input),
    s.busy = none → s.inputs = .command w :: rest → (∀ row ∈ opcodeTable, ¬ row.selects w) →
      step s = .next { s with inputs := rest, rspOut := s.rspOut ++ [0x1000#16] }

/-- Every command, and every step, has a next state: no command stops the machine with a fault or is
refused by the model (60_exceptions.md R180, R193). -/
def Obligations.NothingStopsTheMachine : Prop :=
  (∀ (i : Instr) (s : State), Proceeds (exec i s)) ∧ ∀ s : State, Proceeds (step s)

/-- One response word per command, of a status code below 8, with data 0 when the status is not OK;
none only where the command waits for the transport or `rst` fell inside it
(30_encoding.md R82, R83). -/
def Obligations.OneResponsePerCommand : Prop :=
  ∀ (i : Instr) (s t : State), exec i s = .next t →
    (∃ w : ResponseWord, t.rspOut = s.rspOut ++ [w] ∧ t.busy = none ∧
      (w.extractLsb' 12 4).toNat < 8 ∧ (w.extractLsb' 12 4 ≠ 0#4 → w.extractLsb' 0 12 = 0#12)) ∨
    (t.rspOut = s.rspOut ∧ (t.busy ≠ none ∨ ¬ s.NoRstInside))

/-- `ch` > 11 is refused first, in every command that takes a channel (60_exceptions.md R182). -/
def Obligations.BadChannelIsRejected : Prop :=
  ∀ (s : State) (i : Instr) (ch : BitVec 4), i.channel? = some ch → 11 < ch.toNat →
    exec i s = .next { s with busy := none, rspOut := s.rspOut ++ [0x2000#16] }

/-- WRONG_ROLE: PULLUP and PULLDN of a channel that is no GPIO_IN, GPIOST of a SENSOR channel; but not
GPIOEN of a SENSOR channel nor TCHCH of a GPIO_OUT channel, which answer OK (60_exceptions.md
R187). -/
def Obligations.WrongRoleIsRejected : Prop :=
  ∀ (s : State) (c : ChannelIx),
    let refused := { s with busy := none, rspOut := s.rspOut ++ [0x6000#16] }
    (s.role c ≠ .gpioIn → exec (.pullup (channelOperand c)) s = .next refused ∧
      exec (.pulldn (channelOperand c)) s = .next refused) ∧
    (s.role c = .sensor → exec (.gpiost (channelOperand c)) s = .next refused) ∧
    let accepted := { s with busy := none, rspOut := s.rspOut ++ [0x0000#16] }
    (s.role c = .sensor → ∀ en, exec (.gpioen (channelOperand c) en) s = .next accepted) ∧
    (s.role c = .gpioOut → exec (.tchch (channelOperand c)) s = .next accepted)

/-- While a command is in progress no other command is accepted (10_state.md R41). -/
def Obligations.BusyBlockAcceptsNoCommand : Prop :=
  ∀ (s t : State) (f : InFlight), s.busy = some f → step s = .next t →
    commandWords t.inputs = commandWords s.inputs

/-- A transport that never answers keeps the command in progress, without a response, whatever else
happens but `rst` (20_memory.md R56). -/
def Obligations.SilentTransportHangs : Prop :=
  ∀ (s t : State) (f : InFlight) (r : Request), s.busy = some f → f.outstanding = some r →
    (∀ a, Input.answer a ∉ s.inputs) → (∀ b, Input.event (.rst b) ∉ s.inputs) →
    step s = .next t →
      t.busy = some f ∧ t.rspOut = s.rspOut ∧ t.xpOut = s.xpOut ∧
        (∀ a, Input.answer a ∉ t.inputs) ∧ ∀ b, Input.event (.rst b) ∉ t.inputs

/-- How long the transport takes to answer does not matter (70_reset_and_hazards.md R238): a command
that waits at a slot, and then gets the answer `a`, ends as it does when the slot answers `a` at
once. -/
def Obligations.LateAnswerIsAsGoodAsPrompt : Prop :=
  ∀ (i : Instr) (s u : State) (pre rest : List Slot) (es : List Event) (a : Answer)
    (later : List Input),
    exec i { s with script := pre ++ ⟨es, none⟩ :: rest, inputs := later } = .next u →
    (∀ slot ∈ pre, slot.answer ≠ none) → u.busy ≠ none → u.script = rest →
      step { u with inputs := .answer a :: later } =
        exec i { s with script := pre ++ ⟨es, some a⟩ :: rest, inputs := later }

/-- The number of transport requests of a command (70_reset_and_hazards.md R238): exact in a quiet
environment, an upper bound in any. -/
def Obligations.RequestsPerCommand : Prop :=
  ∀ (i : Instr) (s t : State), exec i s = .next t →
    ∃ rs, t.xpOut = s.xpOut ++ rs ∧ rs.length ≤ requestCount s i ∧
      (s.QuietFor 5 → rs.length = requestCount s i)

/-! ## Reset and invariants -/

/-- The reset values of 10_state.md R45; DBD_RESET and BUS_ADDR are the parameters (logs 4, 6). -/
def Obligations.ResetValues : Prop :=
  (∀ c, State.reset.chan c = ⟨.sensor, false, 0#16, 0#32, .idle, false⟩) ∧
    State.reset.useIRQ = false ∧ State.reset.interrupted = false ∧
    State.reset.debounceDefault = Config.dbdReset ∧ State.reset.address = Config.busAddr ∧
    State.reset.busy = none

/-- `rst` gives the block its reset state, abandons a command without a response, issues no request,
and does not reset the chip: the chip stays as it is, but that an outstanding write may complete there
(70_reset_and_hazards.md R210, R211). That the write, if it completes, does so at the moment of `rst`
is the model's reading of R211 (log 12, DEDUCED). -/
def Obligations.RstResetsTheBlockOnly : Prop :=
  ∀ (s : State) (landed : Bool) (rest : List Input), s.inputs = .event (.rst landed) :: rest →
    (∀ f, s.busy = some f → f.outstanding ≠ none) →
    ∃ t, step s = .next t ∧ (∀ c, t.chan c = Channel.reset) ∧
      t = { s with
        x := t.x, address := Config.busAddr, useIRQ := false, interrupted := false,
        debounceDefault := Config.dbdReset, busy := none, inputs := rest, regs := t.regs,
        outLatch := t.outLatch, draws := t.draws } ∧
      ((landed = false ∨ ∀ d reg v, s.outstanding ≠ some (.write8 d reg v)) →
        t.regs = s.regs ∧ t.outLatch = s.outLatch ∧ t.draws = s.draws) ∧
      ∀ d reg v, landed = true → s.outstanding = some (.write8 d reg v) →
        t.regs = (s.memWrite8 reg v).regs ∧ t.outLatch = (s.memWrite8 reg v).outLatch ∧
          t.draws = (s.memWrite8 reg v).draws

/-- The invariant holds at reset. -/
def Obligations.ResetMeetsInvariant : Prop := State.reset.Inv

/-- Every step keeps the invariant: the contiguous layout with channels 0 to 3 SENSOR
(10_state.md R21, R24), the bus address, the canonical form of the chip's registers, and a
sequencer that is idle or waits at a request of its command, with the gate of TCHCH passed and the
channel of GPIOST an input; whatever the environment does. -/
def Obligations.StepKeepsInvariant : Prop :=
  ∀ s t : State, s.Inv → step s = .next t → t.Inv

/-- The interrupt latch is set by FIREIRQ only (10_state.md R32). -/
def Obligations.OnlyFireirqSetsTheLatch : Prop :=
  ∀ s t : State, step s = .next t → s.interrupted = false → t.interrupted = true → FiresIn s

/-- FIREIRQ sets the latch, in either mode and whether or not the block is busy, and touches nothing
else (43_interrupt_plumbing.md R161). -/
def Obligations.FireirqSetsTheLatch : Prop :=
  ∀ (s : State) (rest : List Input), s.inputs = .event .fireIrq :: rest →
    (∀ f, s.busy = some f → f.outstanding ≠ none) →
      step s = .next { s with interrupted := true, inputs := rest }

/-- The timestamp and the latch of a channel move only by an accepted TCHCH for that channel
(10_state.md R23, R25), in the step that accepts it or in the step in which the late answer of its
status read completes it: the timestamp changes only from IDLE to TOUCHED, with the window elapsed,
and takes the sample of `now` made when the command was accepted (R36). That a busy block waits as
`State.WaitsForTransport` says is part of the invariant every step keeps (StepKeepsInvariant). -/
def Obligations.OnlyQueriesMoveTheLatch : Prop :=
  ∀ (s t : State) (c : ChannelIx), s.WaitsForTransport → s.NoRstInside → ¬ s.RstComes →
    step s = .next t →
    ((t.chan c).touched ≠ (s.chan c).touched ∨
      (t.chan c).lastTouchTimestamp ≠ (s.chan c).lastTouchTimestamp) →
    ∃ sample : Time,
      ((s.busy = none ∧ sample = s.now ∧
          ∃ w rest, s.inputs = .command w :: rest ∧ decode w = .ok (.tchch (channelOperand c))) ∨
        ∃ f rest, s.busy = some f ∧ sample = f.t ∧
          f.todo = [.readStatus, .takeStatus, .judgeTouch c] ∧
          takeNonCommand s.inputs = some (.answer .ok, rest)) ∧
      ((t.chan c).lastTouchTimestamp ≠ (s.chan c).lastTouchTimestamp →
        (s.chan c).touched = .idle ∧ (t.chan c).touched = .touched ∧
          (t.chan c).lastTouchTimestamp = sample ∧ s.elapsed c sample = true)

/-! ## The chip's register space -/

/-- A 16-bit read is little-endian (20_memory.md R52). -/
def Obligations.WordReadIsLittleEndian : Prop :=
  ∀ (s : State) (reg : RegNo) (lo hi : Byte), reg ≠ 0xFF#8 →
    Memory.read s.regs reg.toNat = some lo → Memory.read s.regs (reg.toNat + 1) = some hi →
      s.memRead16 reg = (hi ++ lo, s)

/-- A byte written is the byte read back, and a write leaves every other register alone, but for the
soft reset (ChipResetKeepsTheBlock) and the side effect of GPIO_SET, GPIO_CLR and GPIO_TOG on the data
register (20_memory.md R53, R57, R59). The model's choices: which registers take a byte only while
the ECR holds 0, and that such a register is undetermined after a write while it does not (R62,
70_reset_and_hazards.md R225; log 16, PRESUMED); that GPIO_SET, GPIO_CLR and GPIO_TOG read back as
last written (log 14, PRESUMED). -/
def Obligations.WriteThenRead : Prop :=
  ∀ (s : State) (reg : RegNo) (v : Byte), ¬ (reg = 0x80#8 ∧ v = 0x63#8) →
    let stopped := Memory.read s.regs 0x5E = some 0x00#8
    let needsStop := 0x2B ≤ reg.toNat ∧ reg.toNat ≤ 0x72 ∧ reg ≠ 0x5E#8 ∨
      0x7B ≤ reg.toNat ∧ reg.toNat ≤ 0x7F
    (¬ needsStop ∨ stopped → (s.memWrite8 reg v).memRead8 reg = (v, s.memWrite8 reg v)) ∧
    (needsStop ∧ ¬ stopped → Memory.read (s.memWrite8 reg v).regs reg.toNat = none) ∧
    ∀ a, a ≠ reg.toNat → ¬ (a = 0x75 ∧ (reg = 0x78#8 ∨ reg = 0x79#8 ∨ reg = 0x7A#8)) →
      Memory.read (s.memWrite8 reg v).regs a = Memory.read s.regs a

/-- GPIO_SET, GPIO_CLR and GPIO_TOG act on the output latches with every 1 written
(20_memory.md R65, there marked as general knowledge: log 14); no other write but one to the soft
reset register moves a latch. -/
def Obligations.WriteOneToActLatches : Prop :=
  ∀ (s : State) (v : Byte) (k : GpioBit),
    (s.memWrite8 0x78#8 v).outLatch.getLsbD k.val = (s.outLatch.getLsbD k.val || v.getLsbD k.val) ∧
    (s.memWrite8 0x79#8 v).outLatch.getLsbD k.val = (s.outLatch.getLsbD k.val && !v.getLsbD k.val) ∧
    (s.memWrite8 0x7A#8 v).outLatch.getLsbD k.val = (s.outLatch.getLsbD k.val ^^ v.getLsbD k.val) ∧
    ∀ reg, reg ≠ 0x78#8 → reg ≠ 0x79#8 → reg ≠ 0x7A#8 → reg ≠ 0x80#8 →
      (s.memWrite8 reg v).outLatch = s.outLatch

/-- The host's boot sequence verifies Config2 and leaves the thresholds at 12 and 6, all 12 electrodes
enabled with ECR_HI, and the block reset and idle (70_reset_and_hazards.md R214 to R221), for every
battery of step 5 on the registers of R219 and whatever bytes the chip's reset has left (`es`) in
registers other than the ECR and Config2. Of the chip that R212 describes it does not say that the
GPIO enable bits are 0: the spec gives no reset value for them, and the sequence leaves them as the
chip's reset did. The model's choices: what the chip's reset leaves (log 15), writes without error on
an otherwise quiet chip (log 26), and that they are effective while the ECR is 0 (log 16). -/
def Obligations.BootLeavesTheDefaultConfiguration : Prop :=
  ∀ (s : State) (battery : List (RegNo × Byte)) (es : List Event),
    (∀ w ∈ battery, batteryRegister w.1 = true) →
    (∀ e ∈ es, ∃ reg v, e = .chipByte reg v ∧ reg ≠ 0x5E#8 ∧ reg ≠ 0x5D#8) →
    let t := (s.hostBoot battery es).2
    (s.hostBoot battery es).1 = true ∧ t.Booted ∧
      (∀ i : ChannelIx, Memory.read t.regs (0x41 + 2 * i.val) = some 12#8 ∧
        Memory.read t.regs (0x42 + 2 * i.val) = some 6#8) ∧
      Memory.read t.regs 0x77 =
        Memory.read ((s.busWrites bootOpening).applyEvents es).regs 0x77 ∧
      t.useIRQ = false ∧ t.interrupted = false ∧ t.debounceDefault = Config.dbdReset ∧
      t.busy = none ∧ t.rspOut = s.rspOut ∧ t.xpOut = s.xpOut

/-- The host's writes are the list `bootWrites`: two before the readback of Config2 and the others
after it; after a wrong readback these are exactly the two of steps 1 and 2 and nothing else happens
(70_reset_and_hazards.md R217, R222). `es` is what the chip does before the readback, the battery is
the writes of step 5 (log 26). -/
def Obligations.FailedBootWritesTwice : Prop :=
  ∀ (s : State) (battery : List (RegNo × Byte)) (es : List Event),
    let v := (s.bootReadback es).1
    let writes := bootWrites battery v
    let read := (((s.busWrites (writes.take 2)).applyEvents es).memRead8 0x5D#8).2
    (v = 0x24#8 → s.hostBoot battery es = (true, (read.busWrites (writes.drop 2)).rst false)) ∧
    (v ≠ 0x24#8 → s.hostBoot battery es = (false, read) ∧
      writes = [(0x80#8, 0x63#8), (0x5E#8, 0x00#8)])

/-- The threshold fan-out writes exactly 24 values at the documented offsets, and boot step 4 is the
fan-out of 12 and 6 (70_reset_and_hazards.md R218). -/
def Obligations.ThresholdFanOut : Prop :=
  ∀ touch release : Byte,
    (thresholdWrites touch release).length = 24 ∧
    (∀ i : ChannelIx, (BitVec.ofNat 8 (0x41 + 2 * i.val), touch) ∈ thresholdWrites touch release ∧
      (BitVec.ofNat 8 (0x42 + 2 * i.val), release) ∈ thresholdWrites touch release) ∧
    ((thresholdWrites touch release).map Prod.fst).Nodup ∧
    ∀ battery, thresholdWrites 12#8 6#8 <+: bootProgramming battery

/-! ## SETTYPE -/

/-- An accepted SETTYPE in a quiet environment (40_channel_role_packer.md R100): the role, then the
four writes, then the cached levels. Bytes stored: 0x77, 0x76, 0x5E and 0x79; the data register 0x75
is not determined afterwards (log 14). That the writes take effect while electrodes run is log 16. -/
def Obligations.SettypeReprogramsTheChip : Prop :=
  ∀ (s : State) (c : ChannelIx) (r : Role), settypeAccepted s c r → s.QuietFor 5 →
    let role' := roleUpdate s.role c r
    ∃ t, exec (.settype (channelOperand c) r.code) s = .next t ∧
      (∀ i, t.chan i = { s.chan i with role := role' i, gpioOutputHigh := false }) ∧
      Memory.read t.regs 0x77 = some (packEn role') ∧
      Memory.read t.regs 0x76 = some (packDir role') ∧
      Memory.read t.regs 0x5E = some (Config.ecrHi ++ BitVec.ofNat 4 (sensorCount role')) ∧
      Memory.read t.regs 0x79 = some 0xFF#8 ∧ Memory.read t.regs 0x75 = none ∧
      (∀ a, a ≠ 0x77 → a ≠ 0x76 → a ≠ 0x5E → a ≠ 0x79 → a ≠ 0x75 →
        Memory.read t.regs a = Memory.read s.regs a) ∧
      t = { s with
        x := t.x, busy := none, script := s.script.drop 5, rspOut := s.rspOut ++ [0x0000#16],
        xpOut := s.xpOut ++ (settypeRequests s.address role').map Request.word, regs := t.regs,
        outLatch := 0x00#8 }

/-- The checks of SETTYPE in their order, each without effect (40_channel_role_packer.md R100 S0,
60_exceptions.md R190). -/
def Obligations.SettypeRefusesInOrder : Prop :=
  ∀ (s : State) (c : ChannelIx) (code : BitVec 2),
    let refused := fun w : ResponseWord => { s with busy := none, rspOut := s.rspOut ++ [w] }
    (code = 3#2 → exec (.settype (channelOperand c) code) s = .next (refused 0x3000#16)) ∧
    ∀ r : Role, code = r.code →
      (c.val < 4 ∧ r ≠ .sensor →
        exec (.settype (channelOperand c) code) s = .next (refused 0x4000#16)) ∧
      (¬ (c.val < 4 ∧ r ≠ .sensor) → ¬ Contiguous (roleUpdate s.role c r) →
        exec (.settype (channelOperand c) code) s = .next (refused 0x5000#16))

/-- A transport failure at the j-th of the four writes (40_channel_role_packer.md R110): the role
stays, the writes already done stay at the chip, no later write is issued, the cached levels are not
cleared. That the failed write itself is at the chip when it landed is no part of R110: it is the
model's reading of 41_gpio_bit_ops.md R121 (log 11, DEDUCED); with `landed` false the chip is as in
the vectors VF1 and VF2. -/
def Obligations.SettypeBusErrorKeepsWhatIsDone : Prop :=
  ∀ (s : State) (c : ChannelIx) (r : Role) (j : Nat) (landed : Bool) (rest : List Slot),
    settypeAccepted s c r → j < 4 →
    s.script = List.replicate (j + 1) Slot.quiet ++ ⟨[], some (.error landed)⟩ :: rest →
    let role' := roleUpdate s.role c r
    let requests := settypeRequests s.address role'
    ∃ t, exec (.settype (channelOperand c) r.code) s = .next t ∧
      (∀ i, t.chan i = { s.chan i with role := role' i }) ∧
      t.regs = (s.performAll (requests.take (j + landed.toNat))).regs ∧
      t.outLatch = (s.performAll (requests.take (j + landed.toNat))).outLatch ∧
      t = { s with
        x := t.x, busy := none, script := rest, rspOut := s.rspOut ++ [0x7000#16],
        xpOut := s.xpOut ++ (requests.take (j + 1)).map Request.word, regs := t.regs,
        outLatch := t.outLatch }

/-- What SETTYPE leaves alone (40_channel_role_packer.md R108), however the transport answers and
whatever FIREIRQ does meanwhile. -/
def Obligations.SettypeLeavesTouchStateAlone : Prop :=
  ∀ (s t : State) (ch : BitVec 4) (role : BitVec 2), s.ChipStill →
    exec (.settype ch role) s = .next t →
    (∀ i, (t.chan i).touched = (s.chan i).touched ∧
      (t.chan i).lastTouchTimestamp = (s.chan i).lastTouchTimestamp ∧
      (t.chan i).dbv = (s.chan i).dbv ∧ (t.chan i).debounce = (s.chan i).debounce) ∧
    t.useIRQ = s.useIRQ ∧ t.debounceDefault = s.debounceDefault ∧ t.address = s.address ∧
    (s.interrupted = true → t.interrupted = true) ∧
    (t.interrupted = true → s.interrupted = true ∨ FiresIn s) ∧
    ∀ a, a = 0x73 ∨ a = 0x74 ∨ (0x41 ≤ a ∧ a ≤ 0x58) →
      Memory.read t.regs a = Memory.read s.regs a

/-- The layout check in terms of the sensor count (40_channel_role_packer.md R103), under the
invariant of 10_state.md R24. -/
def Obligations.LayoutCheckByCount : Prop :=
  ∀ (role : ChannelIx → Role) (c : ChannelIx) (r : Role), Contiguous role → LowSensors role →
    (layoutOk role c r = true ↔
      (r = .sensor → c.val ≤ sensorCount role) ∧ (r ≠ .sensor → sensorCount role ≤ c.val + 1))

/-- The enable and direction bytes (40_channel_role_packer.md R105). -/
def Obligations.PackedBytes : Prop :=
  ∀ role : ChannelIx → Role,
    (∀ k : GpioBit, (packEn role).getLsbD k.val = decide (role (channelOfBit k) ≠ .sensor) ∧
      (packDir role).getLsbD k.val = decide (role (channelOfBit k) = .gpioOut)) ∧
    packDir role &&& packEn role = packDir role ∧
    (Contiguous role → LowSensors role → packEn role = 0xFF#8 <<< (sensorCount role - 4))

/-- The electrode count (40_channel_role_packer.md R106): highest SENSOR index plus one, 4 to 12,
in the low four bits of the byte written (20_memory.md R62). -/
def Obligations.ElectrodeCount : Prop :=
  ∀ role : ChannelIx → Role, LowSensors role →
    (∃ c, role c = .sensor ∧ sensorCount role = c.val + 1 ∧ ∀ i, role i = .sensor → i ≤ c) ∧
    4 ≤ sensorCount role ∧ sensorCount role ≤ 12 ∧
    ((ecrValue (sensorCount role)).extractLsb' 0 4).toNat = sensorCount role ∧
    (ecrValue (sensorCount role)).extractLsb' 4 4 = Config.ecrHi

/-- R26 and R126 say that an output channel always reads 0. It does as long as no command ends with
BUS_ERROR: a step that sends no such response keeps every output at 0, from every state that waits as
the invariant says. Under R110 it need not after one: a channel that read 1 as an input and becomes an
output by a SETTYPE that ends with BUS_ERROR still reads 1 (log 18). -/
def Obligations.OutputsReadLowUntilBusError : Prop :=
  (∀ s t : State, s.WaitsForTransport → s.OutputsReadLow → step s = .next t →
    t.rspOut ≠ s.rspOut ++ [0x7000#16] → t.OutputsReadLow) ∧
  ∀ (s : State) (c : ChannelIx), s.role c = .gpioIn → (s.chan c).gpioOutputHigh = true →
    settypeAccepted s c .gpioOut → s.script = [Slot.quiet, ⟨[], some (.error false)⟩] →
    ∃ t, exec (.settype (channelOperand c) 2#2) s = .next t ∧ t.role c = .gpioOut ∧
      exec (.gpiost (channelOperand c)) t = .next { t with rspOut := t.rspOut ++ [0x0001#16] }

/-! ## GPIO bit operations -/

/-- PULLUP and PULLDN of an input channel (41_gpio_bit_ops.md R122, R123): CTL0 bit k set, CTL1 bit
k set for PULLUP and cleared for PULLDN, read before write. Bytes stored: 0x73 and 0x74. -/
def Obligations.PullsSetTheControlBits : Prop :=
  ∀ (s : State) (c : ChannelIx) (i : Instr) (up : Bool), s.role c = .gpioIn → s.QuietFor 4 →
    (i = .pullup (channelOperand c) ∧ up = true ∨ i = .pulldn (channelOperand c) ∧ up = false) →
    let ctl0 := s.memRead8 0x73#8
    let ctl1 := ctl0.2.memRead8 0x74#8
    let new0 := withBit ctl0.1 (gpioBit c) true
    let new1 := withBit ctl1.1 (gpioBit c) up
    ∃ t, exec i s = .next t ∧
      Memory.read t.regs 0x73 = some new0 ∧ Memory.read t.regs 0x74 = some new1 ∧
      (∀ a, a ≠ 0x73 → a ≠ 0x74 → Memory.read t.regs a = Memory.read s.regs a) ∧
      t = { s with
        busy := none, script := s.script.drop 4, rspOut := s.rspOut ++ [0x0000#16],
        xpOut := s.xpOut ++ [.read8 s.address 0x73#8, .write8 s.address 0x73#8 new0,
          .read8 s.address 0x74#8, .write8 s.address 0x74#8 new1],
        regs := t.regs, draws := ctl1.2.draws }

/-- GPIOEN of a GPIO channel (41_gpio_bit_ops.md R124): bit k of GPIO_EN becomes `en`; no state of
the block changes. Byte stored: 0x77. -/
def Obligations.GpioenWritesTheEnableBit : Prop :=
  ∀ (s : State) (c : ChannelIx) (en : Bool), s.role c ≠ .sensor → s.QuietFor 2 →
    let old := s.memRead8 0x77#8
    let new := withBit old.1 (gpioBit c) en
    ∃ t, exec (.gpioen (channelOperand c) en) s = .next t ∧
      Memory.read t.regs 0x77 = some new ∧
      (∀ a, a ≠ 0x77 → Memory.read t.regs a = Memory.read s.regs a) ∧
      t = { s with
        busy := none, script := s.script.drop 2, rspOut := s.rspOut ++ [0x0000#16],
        xpOut := s.xpOut ++ [.read8 s.address 0x77#8, .write8 s.address 0x77#8 new],
        regs := t.regs, draws := old.2.draws }

/-- GPIOEN of a SENSOR channel is a successful no-op (41_gpio_bit_ops.md R125). -/
def Obligations.GpioenIgnoresSensors : Prop :=
  ∀ (s : State) (c : ChannelIx) (en : Bool), s.role c = .sensor →
    exec (.gpioen (channelOperand c) en) s =
      .next { s with busy := none, rspOut := s.rspOut ++ [0x0000#16] }

/-- Bit isolation (41_gpio_bit_ops.md R127): of a register byte the chip holds, each bit operation
on a channel of 4 to 11 changes that channel's bit only. -/
def Obligations.BitOperationsIsolateBits : Prop :=
  ∀ (s : State) (c : ChannelIx) (i : Instr) (reg : Nat) (old : Byte), 4 ≤ c.val → s.QuietFor 4 →
    Memory.read s.regs reg = some old →
    (s.role c = .gpioIn ∧ (i = .pullup (channelOperand c) ∨ i = .pulldn (channelOperand c)) ∧
        (reg = 0x73 ∨ reg = 0x74) ∨
      s.role c ≠ .sensor ∧ (∃ en, i = .gpioen (channelOperand c) en) ∧ reg = 0x77) →
    ∃ t new, exec i s = .next t ∧ Memory.read t.regs reg = some new ∧
      ∀ j, j + 4 ≠ c.val → new.getLsbD j = old.getLsbD j

/-- A failure in S3 or S4 of PULLUP or PULLDN, the read or the write of CTL1, ends the command with
BUS_ERROR and leaves CTL0 modified and CTL1 not (41_gpio_bit_ops.md R128), whatever else the error
answer says. -/
def Obligations.PullCutByBusError : Prop :=
  ∀ (s : State) (c : ChannelIx) (i : Instr) (old0 : Byte) (good : Nat) (landed : Bool)
    (rest : List Slot),
    s.role c = .gpioIn → (i = .pullup (channelOperand c) ∨ i = .pulldn (channelOperand c)) →
    Memory.read s.regs 0x73 = some old0 → (good = 2 ∨ good = 3) →
    s.script = List.replicate good Slot.quiet ++ ⟨[], some (.error landed)⟩ :: rest →
    ∃ t, exec i s = .next t ∧ t.rspOut = s.rspOut ++ [0x7000#16] ∧ t.busy = none ∧
      t.xpOut.length = s.xpOut.length + good + 1 ∧
      Memory.read t.regs 0x73 = some (withBit old0 (gpioBit c) true) ∧
      (∀ a, a ≠ 0x73 → Memory.read t.regs a = Memory.read s.regs a) ∧ t.x = s.x

/-- A failed read of a control register, or of the data register for GPIOST, ends the command before
anything is written: BUS_ERROR, and no state of the block or of the chip has changed
(41_gpio_bit_ops.md R121, R126, R128). -/
def Obligations.FailedRegisterReadChangesNothing : Prop :=
  ∀ (s : State) (c : ChannelIx) (i : Instr) (reg : RegNo) (landed : Bool) (rest : List Slot),
    s.script = ⟨[], some (.error landed)⟩ :: rest →
    (s.role c = .gpioIn ∧ (i = .pullup (channelOperand c) ∨ i = .pulldn (channelOperand c)) ∧
        reg = 0x73#8 ∨
      s.role c ≠ .sensor ∧ (∃ en, i = .gpioen (channelOperand c) en) ∧ reg = 0x77#8 ∨
      s.role c = .gpioIn ∧ i = .gpiost (channelOperand c) ∧ reg = 0x75#8) →
      exec i s = .next { s with
        busy := none
        script := rest
        rspOut := s.rspOut ++ [0x7000#16]
        xpOut := s.xpOut ++ [.read8 s.address reg] }

/-- GPIOST (41_gpio_bit_ops.md R126): an output answers its cached level without a request; an input
answers the live level, bit k of GPIO_DAT, and caches it. No byte of the chip is stored. -/
def Obligations.GpiostAnswersTheLevel : Prop :=
  ∀ (s : State) (c : ChannelIx),
    (s.role c = .gpioOut →
      exec (.gpiost (channelOperand c)) s =
        .next { s with
          busy := none
          rspOut := s.rspOut ++ [if (s.chan c).gpioOutputHigh then 0x0001#16 else 0x0000#16] }) ∧
    (s.role c = .gpioIn → s.QuietFor 2 →
      let dat := s.memRead8 0x75#8
      let level := dat.1.getLsbD (gpioBit c).val
      ∃ t, exec (.gpiost (channelOperand c)) s = .next t ∧
        (∀ j, t.chan j = if j = c then { s.chan c with gpioOutputHigh := level } else s.chan j) ∧
        t = { s with
          x := t.x, busy := none, script := s.script.drop 2,
          rspOut := s.rspOut ++ [if level then 0x0001#16 else 0x0000#16],
          xpOut := s.xpOut ++ [.read8 s.address 0x75#8], draws := dat.2.draws })

/-! ## Touch detection -/

/-- TCHALL in polling mode (42_touch_detection.md R140, R141): one status read, the low 12 bits, and
the interrupt latch cleared. No byte of the chip is stored. -/
def Obligations.TchallPolls : Prop :=
  ∀ s : State, s.useIRQ = false → s.QuietFor 2 →
    let status := s.memRead16 0x00#8
    exec .tchall s = .next { s with
      interrupted := false
      busy := none
      script := s.script.drop 2
      rspOut := s.rspOut ++ [0#4 ++ status.1.extractLsb' 0 12]
      xpOut := s.xpOut ++ [.read16 s.address 0x00#8]
      draws := status.2.draws }

/-- TCHALL in interrupt-latch mode (42_touch_detection.md R140, R141): the latch as 0x001 or 0x000,
cleared, and no request. -/
def Obligations.TchallReportsTheLatch : Prop :=
  ∀ s : State, s.useIRQ = true → s.QuietFor 1 →
    exec .tchall s = .next { s with
      interrupted := false
      busy := none
      script := s.script.drop 1
      rspOut := s.rspOut ++ [if s.interrupted then 0x0001#16 else 0x0000#16] }

/-- The testable properties of TCHALL (42_touch_detection.md R142): polling an unchanged status twice
answers the same; in interrupt-latch mode one FIREIRQ, or several, are reported exactly once. -/
def Obligations.TchallTwice : Prop :=
  (∀ (s : State) (lo hi : Byte), s.useIRQ = false → s.QuietFor 4 →
    Memory.read s.regs 0 = some lo → Memory.read s.regs 1 = some hi →
    ∃ t u, exec .tchall s = .next t ∧ exec .tchall t = .next u ∧
      t.rspOut = s.rspOut ++ [0#4 ++ (hi ++ lo).extractLsb' 0 12] ∧
      u.rspOut = t.rspOut ++ [0#4 ++ (hi ++ lo).extractLsb' 0 12]) ∧
  ∀ (s : State) (n : Nat), s.useIRQ = true → s.QuietFor 2 →
    ∃ t u, exec .tchall (s.applyEvents (List.replicate (n + 1) .fireIrq)) = .next t ∧ exec .tchall t = .next u ∧
      t.rspOut = s.rspOut ++ [0x0001#16] ∧ u.rspOut = t.rspOut ++ [0x0000#16]

/-- FIREIRQ against AGG (43_interrupt_plumbing.md R165): in interrupt-latch mode an event before A1
is reported; in either mode an event after the clearing micro-step stays; in polling mode an event
between A1 and A2 is lost. -/
def Obligations.FireirqAgainstAggregate : Prop :=
  (∀ (s : State) (ans : Option Answer) (rest : List Slot), s.useIRQ = true →
    s.script = ⟨[.fireIrq], ans⟩ :: rest →
    ∃ t, exec .tchall s = .next t ∧ t.rspOut = s.rspOut ++ [0x0001#16] ∧ t.interrupted = false) ∧
  (∀ (s : State) (rest : List Input), s.busy = none → s.QuietFor 2 →
    s.inputs = .command 0x100000#24 :: .event .fireIrq :: rest →
    ∃ t u, step s = .next t ∧ step t = .next u ∧ u.interrupted = true) ∧
  ∀ (s : State) (ans : Option Answer) (rest : List Slot), s.useIRQ = false →
    s.script = Slot.quiet :: ⟨[.fireIrq], ans⟩ :: rest →
    ∃ t, exec .tchall s = .next t ∧ t.interrupted = false ∧
      t.rspOut = s.rspOut ++ [0#4 ++ (s.memRead16 0x00#8).1.extractLsb' 0 12]

/-- A failed status read (42_touch_detection.md R140, R145): BUS_ERROR, the interrupt latch not
cleared and the channels unchanged, for TCHALL and for a TCHCH whose gate passes. -/
def Obligations.FailedStatusReadChangesNothing : Prop :=
  ∀ (s : State) (landed : Bool) (rest : List Slot) (i : Instr), s.useIRQ = false →
    s.script = ⟨[], some (.error landed)⟩ :: rest →
    (i = .tchall ∨ ∃ c, i = .tchch (channelOperand c) ∧ gatePasses s c) →
      exec i s = .next { s with
        busy := none
        script := rest
        rspOut := s.rspOut ++ [0x7000#16]
        xpOut := s.xpOut ++ [.read16 s.address 0x00#8] }

/-- The debounce window (42_touch_detection.md R143, 10_state.md R22): the difference modulo 2^32
is at least the effective debounce value; equality counts, and 0 always has elapsed. -/
def Obligations.WindowElapses : Prop :=
  ∀ (s : State) (c : ChannelIx) (t : Time),
    let deb := if (s.chan c).dbv then (s.chan c).debounce else s.debounceDefault
    (s.elapsed c t = true ↔ deb.setWidth 32 ≤ t - (s.chan c).lastTouchTimestamp) ∧
    s.elapsed c ((s.chan c).lastTouchTimestamp + deb.setWidth 32) = true ∧
    (deb = 0#16 → s.elapsed c t = true)

/-- TCHCH in polling mode when the gate passes: the rows of 42_touch_detection.md R144 in which AGG
is evaluated. The result is the latch after the command. -/
def Obligations.TchchMovesTheLatch : Prop :=
  ∀ (s : State) (c : ChannelIx), s.useIRQ = false → gatePasses s c → s.QuietFor 3 →
    let status := s.memRead16 0x00#8
    let b := status.1.getLsbD c.val
    ∃ t, exec (.tchch (channelOperand c)) s = .next t ∧
      (t.chan c).touched = (if b then .touched else .idle) ∧
      (t.chan c).lastTouchTimestamp =
        (if b = true ∧ (s.chan c).touched = .idle then s.now
          else (s.chan c).lastTouchTimestamp) ∧
      t.chan c = { s.chan c with
        touched := (t.chan c).touched, lastTouchTimestamp := (t.chan c).lastTouchTimestamp } ∧
      (∀ j, j ≠ c → t.chan j = s.chan j) ∧
      t = { s with
        x := t.x, interrupted := false, busy := none, script := s.script.drop 3,
        rspOut := s.rspOut ++ [if b then 0x0001#16 else 0x0000#16],
        xpOut := s.xpOut ++ [.read16 s.address 0x00#8], draws := status.2.draws }

/-- TCHCH in interrupt-latch mode (42_touch_detection.md R148): channel 0 reports the latch, every
other channel 0; the latch is consumed and no request is issued. -/
def Obligations.TchchInInterruptMode : Prop :=
  ∀ (s : State) (c : ChannelIx), s.useIRQ = true → gatePasses s c → s.QuietFor 2 →
    let b := decide (c = 0) && s.interrupted
    ∃ t, exec (.tchch (channelOperand c)) s = .next t ∧
      t.chan c = { s.chan c with
        touched := if b then .touched else .idle
        lastTouchTimestamp := if b = true ∧ (s.chan c).touched = .idle then s.now
          else (s.chan c).lastTouchTimestamp } ∧
      (∀ j, j ≠ c → t.chan j = s.chan j) ∧
      t = { s with
        x := t.x, interrupted := false, busy := none, script := s.script.drop 2,
        rspOut := s.rspOut ++ [if b then 0x0001#16 else 0x0000#16] }

/-- TCHCH of an output channel answers 0 at once and changes nothing (42_touch_detection.md
R146). -/
def Obligations.TchchSkipsOutputs : Prop :=
  ∀ (s : State) (c : ChannelIx), s.role c = .gpioOut →
    exec (.tchch (channelOperand c)) s =
      .next { s with busy := none, rspOut := s.rspOut ++ [0x0000#16] }

/-- TCHCH of an IDLE channel inside its window answers 0 at once: AGG is not evaluated, no request is
issued and the interrupt latch is not cleared (42_touch_detection.md R147, R144 row 1). -/
def Obligations.TchchHeldByTheWindow : Prop :=
  ∀ (s : State) (c : ChannelIx), (s.chan c).touched = .idle →
    (s.now - (s.chan c).lastTouchTimestamp).toNat < (s.deb c).toNat →
    exec (.tchch (channelOperand c)) s =
      .next { s with busy := none, rspOut := s.rspOut ++ [0x0000#16] }

/-- `now` is sampled once, when the command is accepted (10_state.md R36): a change of the time
input during a TCHCH does not reach the stored timestamp. -/
def Obligations.TimeIsSampledOnce : Prop :=
  ∀ (s : State) (c : ChannelIx) (v : Time) (hi lo : Byte) (rest : List Slot),
    s.useIRQ = false → s.role c ≠ .gpioOut → (s.chan c).touched = .idle →
    s.elapsed c s.now = true →
    Memory.read s.regs 0 = some lo → Memory.read s.regs 1 = some hi →
    (hi ++ lo : BitVec 16).getLsbD c.val = true →
    s.script = ⟨[.setNow v], some .ok⟩ :: rest → (∀ slot ∈ rest, slot = Slot.quiet) →
    ∃ t, exec (.tchch (channelOperand c)) s = .next t ∧ t.now = v ∧
      (t.chan c).touched = .touched ∧ (t.chan c).lastTouchTimestamp = s.now

/-- A TCHCH depends on no other channel, whatever the environment does (42_touch_detection.md R155):
two states that differ in other channels only give the same response, the same requests and the same
record of the channel. -/
def Obligations.TchchIgnoresOtherChannels : Prop :=
  ∀ (s : State) (x' : Vector Channel 12) (c : ChannelIx) (t u : State), x'[c.val] = s.x[c.val] →
    exec (.tchch (channelOperand c)) s = .next t →
    exec (.tchch (channelOperand c)) { s with x := x' } = .next u →
      u.chan c = t.chan c ∧ u.rspOut = t.rspOut ∧ u.xpOut = t.xpOut ∧
        u.interrupted = t.interrupted ∧ u.regs = t.regs ∧ u.busy = t.busy

/-! ## Interrupt plumbing and debounce configuration -/

/-- USEIRQ (43_interrupt_plumbing.md R160): the mode flag, and nothing else; the interrupt latch
keeps its value. -/
def Obligations.UseirqSetsTheMode : Prop :=
  ∀ (s : State) (en : Bool),
    exec (.useirq en) s =
      .next { s with useIRQ := en, busy := none, rspOut := s.rspOut ++ [0x0000#16] }

/-- SETDBD (44_debounce_config.md R170): the device-wide value, which changes the effective debounce
of exactly the channels without their own. -/
def Obligations.SetdbdSetsTheDefault : Prop :=
  ∀ (s : State) (v : Millis),
    ∃ t, exec (.setdbd v) s = .next t ∧
      t = { s with debounceDefault := v, busy := none, rspOut := s.rspOut ++ [0x0000#16] } ∧
      ∀ c, t.deb c = if (s.chan c).dbv then s.deb c else v

/-- SETDBC (44_debounce_config.md R171): the channel's own value and its valid bit; BAD_CHANNEL
where no channel is addressed. -/
def Obligations.SetdbcOverrides : Prop :=
  ∀ (s : State) (c : ChannelIx) (v : Millis),
    ∃ t, exec (.setdbc (channelOperand c) v) s = .next t ∧
      (∀ j, t.chan j = if j = c then { s.chan c with debounce := v, dbv := true } else s.chan j) ∧
      t.deb c = v ∧
      t = { s with x := t.x, busy := none, rspOut := s.rspOut ++ [0x0000#16] } ∧
      ∀ ch : BitVec 4, 11 < ch.toNat →
        exec (.setdbc ch v) s = .next { s with busy := none, rspOut := s.rspOut ++ [0x2000#16] }

/-- CLRDBC (44_debounce_config.md R172): the valid bit; the value keeps its bits and the channel
follows the device-wide value again; BAD_CHANNEL where no channel is addressed. -/
def Obligations.ClrdbcRemovesTheOverride : Prop :=
  ∀ (s : State) (c : ChannelIx),
    ∃ t, exec (.clrdbc (channelOperand c)) s = .next t ∧
      (∀ j, t.chan j = if j = c then { s.chan c with dbv := false } else s.chan j) ∧
      t.deb c = s.debounceDefault ∧
      t = { s with x := t.x, busy := none, rspOut := s.rspOut ++ [0x0000#16] } ∧
      ∀ ch : BitVec 4, 11 < ch.toNat →
        exec (.clrdbc ch) s = .next { s with busy := none, rspOut := s.rspOut ++ [0x2000#16] }

/-! ## The chip's own reset -/

/-- The chip's own reset, the soft reset of the host or power-on (20_memory.md R68,
70_reset_and_hazards.md R213): Config2 reads 0x24 (R67), every other register is undetermined, and no
register of the block changes, nor a command in progress, nor a port. That the reset is complete at
once and what it leaves in the registers the spec gives no reset value for is log 15 (DEDUCED). -/
def Obligations.ChipResetKeepsTheBlock : Prop :=
  ∀ (s : State) (e : Event) (rest : List Input), s.inputs = .event e :: rest →
    (e = .chipReset ∨ e = .busWrite 0x80#8 0x63#8) →
    (∀ f, s.busy = some f → f.outstanding ≠ none) →
    ∃ t, step s = .next t ∧ Memory.read t.regs 0x5D = some 0x24#8 ∧
      (∀ a, a ≠ 0x5D → Memory.read t.regs a = none) ∧
      t = { s with inputs := rest, regs := t.regs, outLatch := t.outLatch, draws := t.draws }
end

