-- ==== Sys2Proof/Laws/Memory.lean ====
section
/-! SUPPORT. The laws of the chip's register space: reading after a write, and the canonical
form. -/

namespace Sys2Proof.Machine

@[simp] theorem Memory.read_write_same (m : List Host.Cell) (a : Nat) (v : Byte) :
    Memory.read (Memory.write m a v) a = some v := by
  induction m with
  | nil => simp [Memory.write, Memory.read]
  | cons p rest ih =>
    obtain ⟨b, w⟩ := p
    unfold Memory.write
    split
    · simp [Memory.read]
    · split
      · simp [Memory.read]
      · next h => simp [Memory.read, h, ih]

theorem Memory.read_write_other (m : List Host.Cell) {a b : Nat} (v : Byte) (h : b ≠ a) :
    Memory.read (Memory.write m a v) b = Memory.read m b := by
  induction m with
  | nil => simp [Memory.write, Memory.read, h]
  | cons p rest ih =>
    obtain ⟨k, w⟩ := p
    unfold Memory.write
    split
    · simp [Memory.read, h]
    · split
      · next he => subst he; simp [Memory.read, h]
      · simp [Memory.read, ih]

@[simp] theorem Memory.read_forget_same (m : List Host.Cell) (a : Nat) :
    Memory.read (Memory.forget m a) a = none := by
  induction m with
  | nil => rfl
  | cons p rest ih =>
    obtain ⟨k, w⟩ := p
    by_cases hk : k = a
    · simpa [Memory.forget, hk] using ih
    · have : a ≠ k := fun e => hk e.symm
      simpa [Memory.forget, hk, Memory.read, this] using ih

theorem Memory.read_forget_other (m : List Host.Cell) {a b : Nat} (h : b ≠ a) :
    Memory.read (Memory.forget m a) b = Memory.read m b := by
  induction m with
  | nil => rfl
  | cons p rest ih =>
    obtain ⟨k, w⟩ := p
    by_cases hk : k = a
    · subst hk
      simpa [Memory.forget, Memory.read, h] using ih
    · simp only [Memory.forget, ne_eq, hk, not_false_eq_true, decide_true, List.filter_cons_of_pos,
        Memory.read]
      split
      · rfl
      · exact ih

/-- The entries of a memory after a write: the new one, or old ones. -/
theorem Memory.mem_write {m : List Host.Cell} {a : Nat} {v : Byte} {cell : Host.Cell}
    (h : cell ∈ Memory.write m a v) : cell = (a, v) ∨ cell ∈ m := by
  induction m with
  | nil => simpa [Memory.write] using h
  | cons p rest ih =>
    obtain ⟨k, w⟩ := p
    unfold Memory.write at h
    split at h
    · simpa using h
    · split at h
      · rcases List.mem_cons.mp h with h | h
        · exact .inl h
        · exact .inr (List.mem_cons_of_mem _ h)
      · rcases List.mem_cons.mp h with h | h
        · exact .inr (by simp [h])
        · rcases ih h with h | h
          · exact .inl h
          · exact .inr (List.mem_cons_of_mem _ h)

/-- A write of a register number keeps the canonical form. -/
theorem Memory.wf_write {m : List Host.Cell} (hm : Memory.wf m) {a : Nat} (ha : a < 256) (v : Byte) :
    Memory.wf (Memory.write m a v) := by
  obtain ⟨hp, hb⟩ := hm
  refine ⟨?_, ?_⟩
  · induction m with
    | nil => simp [Memory.write]
    | cons p rest ih =>
      obtain ⟨k, w⟩ := p
      rw [List.pairwise_cons] at hp
      unfold Memory.write
      split
      · next hlt =>
        refine List.pairwise_cons.mpr ⟨?_, List.pairwise_cons.mpr hp⟩
        intro c hc
        rcases List.mem_cons.mp hc with rfl | hc
        · exact hlt
        · exact lt_trans hlt (hp.1 c hc)
      · split
        · next he => subst he; exact List.pairwise_cons.mpr hp
        · next hlt hne =>
          refine List.pairwise_cons.mpr
            ⟨?_, ih hp.2 fun c hc => hb c (List.mem_cons_of_mem _ hc)⟩
          intro c hc
          rcases Memory.mem_write hc with rfl | hc
          · show k < a
            omega
          · exact hp.1 c hc
  · intro cell hc
    rcases Memory.mem_write hc with rfl | hc
    · exact ha
    · exact hb cell hc

/-- Forgetting an entry keeps the canonical form. -/
theorem Memory.wf_forget {m : List Host.Cell} (hm : Memory.wf m) (a : Nat) :
    Memory.wf (Memory.forget m a) :=
  ⟨hm.1.filter _, fun cell hc => hm.2 cell (List.mem_of_mem_filter hc)⟩

/-- The empty memory is canonical. -/
theorem Memory.wf_nil : Memory.wf [] := ⟨List.Pairwise.nil, by simp⟩

/-- The chip's registers at reset are canonical. -/
theorem wf_reset : Memory.wf State.reset.regs := Memory.wf_nil

end Sys2Proof.Machine
end

