-- ==== Sys2Proof/Laws/State.lean ====
section
/-! SUPPORT. One lemma per field per update of State, each true by rfl. -/

namespace Sys2Proof.Machine

@[simp] theorem setChan_x (s : State) (c : ChannelIx) (v : Channel) :
    (s.setChan c v).x = s.x.set c.val v := rfl
@[simp] theorem setChan_address (s : State) (c : ChannelIx) (v : Channel) :
    (s.setChan c v).address = s.address := rfl
@[simp] theorem setChan_useIRQ (s : State) (c : ChannelIx) (v : Channel) :
    (s.setChan c v).useIRQ = s.useIRQ := rfl
@[simp] theorem setChan_interrupted (s : State) (c : ChannelIx) (v : Channel) :
    (s.setChan c v).interrupted = s.interrupted := rfl
@[simp] theorem setChan_debounceDefault (s : State) (c : ChannelIx) (v : Channel) :
    (s.setChan c v).debounceDefault = s.debounceDefault := rfl
@[simp] theorem setChan_busy (s : State) (c : ChannelIx) (v : Channel) :
    (s.setChan c v).busy = s.busy := rfl
@[simp] theorem setChan_now (s : State) (c : ChannelIx) (v : Channel) :
    (s.setChan c v).now = s.now := rfl
@[simp] theorem setChan_inputs (s : State) (c : ChannelIx) (v : Channel) :
    (s.setChan c v).inputs = s.inputs := rfl
@[simp] theorem setChan_script (s : State) (c : ChannelIx) (v : Channel) :
    (s.setChan c v).script = s.script := rfl
@[simp] theorem setChan_rspOut (s : State) (c : ChannelIx) (v : Channel) :
    (s.setChan c v).rspOut = s.rspOut := rfl
@[simp] theorem setChan_xpOut (s : State) (c : ChannelIx) (v : Channel) :
    (s.setChan c v).xpOut = s.xpOut := rfl
@[simp] theorem setChan_regs (s : State) (c : ChannelIx) (v : Channel) :
    (s.setChan c v).regs = s.regs := rfl
@[simp] theorem setChan_outLatch (s : State) (c : ChannelIx) (v : Channel) :
    (s.setChan c v).outLatch = s.outLatch := rfl
@[simp] theorem setChan_draws (s : State) (c : ChannelIx) (v : Channel) :
    (s.setChan c v).draws = s.draws := rfl

@[simp] theorem setRole_address (s : State) (c : ChannelIx) (r : Role) :
    (s.setRole c r).address = s.address := rfl
@[simp] theorem setRole_useIRQ (s : State) (c : ChannelIx) (r : Role) :
    (s.setRole c r).useIRQ = s.useIRQ := rfl
@[simp] theorem setRole_interrupted (s : State) (c : ChannelIx) (r : Role) :
    (s.setRole c r).interrupted = s.interrupted := rfl
@[simp] theorem setRole_debounceDefault (s : State) (c : ChannelIx) (r : Role) :
    (s.setRole c r).debounceDefault = s.debounceDefault := rfl
@[simp] theorem setRole_busy (s : State) (c : ChannelIx) (r : Role) :
    (s.setRole c r).busy = s.busy := rfl
@[simp] theorem setRole_now (s : State) (c : ChannelIx) (r : Role) :
    (s.setRole c r).now = s.now := rfl
@[simp] theorem setRole_inputs (s : State) (c : ChannelIx) (r : Role) :
    (s.setRole c r).inputs = s.inputs := rfl
@[simp] theorem setRole_script (s : State) (c : ChannelIx) (r : Role) :
    (s.setRole c r).script = s.script := rfl
@[simp] theorem setRole_rspOut (s : State) (c : ChannelIx) (r : Role) :
    (s.setRole c r).rspOut = s.rspOut := rfl
@[simp] theorem setRole_xpOut (s : State) (c : ChannelIx) (r : Role) :
    (s.setRole c r).xpOut = s.xpOut := rfl
@[simp] theorem setRole_regs (s : State) (c : ChannelIx) (r : Role) :
    (s.setRole c r).regs = s.regs := rfl
@[simp] theorem setRole_outLatch (s : State) (c : ChannelIx) (r : Role) :
    (s.setRole c r).outLatch = s.outLatch := rfl
@[simp] theorem setRole_draws (s : State) (c : ChannelIx) (r : Role) :
    (s.setRole c r).draws = s.draws := rfl

@[simp] theorem clearLevels_address (s : State) : s.clearLevels.address = s.address := rfl
@[simp] theorem clearLevels_useIRQ (s : State) : s.clearLevels.useIRQ = s.useIRQ := rfl
@[simp] theorem clearLevels_interrupted (s : State) :
    s.clearLevels.interrupted = s.interrupted := rfl
@[simp] theorem clearLevels_debounceDefault (s : State) :
    s.clearLevels.debounceDefault = s.debounceDefault := rfl
@[simp] theorem clearLevels_busy (s : State) : s.clearLevels.busy = s.busy := rfl
@[simp] theorem clearLevels_now (s : State) : s.clearLevels.now = s.now := rfl
@[simp] theorem clearLevels_inputs (s : State) : s.clearLevels.inputs = s.inputs := rfl
@[simp] theorem clearLevels_script (s : State) : s.clearLevels.script = s.script := rfl
@[simp] theorem clearLevels_rspOut (s : State) : s.clearLevels.rspOut = s.rspOut := rfl
@[simp] theorem clearLevels_xpOut (s : State) : s.clearLevels.xpOut = s.xpOut := rfl
@[simp] theorem clearLevels_regs (s : State) : s.clearLevels.regs = s.regs := rfl
@[simp] theorem clearLevels_outLatch (s : State) : s.clearLevels.outLatch = s.outLatch := rfl
@[simp] theorem clearLevels_draws (s : State) : s.clearLevels.draws = s.draws := rfl

@[simp] theorem fireIrq_x (s : State) : s.fireIrq.x = s.x := rfl
@[simp] theorem fireIrq_address (s : State) : s.fireIrq.address = s.address := rfl
@[simp] theorem fireIrq_useIRQ (s : State) : s.fireIrq.useIRQ = s.useIRQ := rfl
@[simp] theorem fireIrq_interrupted (s : State) : s.fireIrq.interrupted = true := rfl
@[simp] theorem fireIrq_debounceDefault (s : State) :
    s.fireIrq.debounceDefault = s.debounceDefault := rfl
@[simp] theorem fireIrq_busy (s : State) : s.fireIrq.busy = s.busy := rfl
@[simp] theorem fireIrq_now (s : State) : s.fireIrq.now = s.now := rfl
@[simp] theorem fireIrq_inputs (s : State) : s.fireIrq.inputs = s.inputs := rfl
@[simp] theorem fireIrq_script (s : State) : s.fireIrq.script = s.script := rfl
@[simp] theorem fireIrq_rspOut (s : State) : s.fireIrq.rspOut = s.rspOut := rfl
@[simp] theorem fireIrq_xpOut (s : State) : s.fireIrq.xpOut = s.xpOut := rfl
@[simp] theorem fireIrq_regs (s : State) : s.fireIrq.regs = s.regs := rfl
@[simp] theorem fireIrq_outLatch (s : State) : s.fireIrq.outLatch = s.outLatch := rfl
@[simp] theorem fireIrq_draws (s : State) : s.fireIrq.draws = s.draws := rfl

@[simp] theorem clearInterrupted_x (s : State) : s.clearInterrupted.x = s.x := rfl
@[simp] theorem clearInterrupted_address (s : State) : s.clearInterrupted.address = s.address := rfl
@[simp] theorem clearInterrupted_useIRQ (s : State) : s.clearInterrupted.useIRQ = s.useIRQ := rfl
@[simp] theorem clearInterrupted_interrupted (s : State) :
    s.clearInterrupted.interrupted = false := rfl
@[simp] theorem clearInterrupted_debounceDefault (s : State) :
    s.clearInterrupted.debounceDefault = s.debounceDefault := rfl
@[simp] theorem clearInterrupted_busy (s : State) : s.clearInterrupted.busy = s.busy := rfl
@[simp] theorem clearInterrupted_now (s : State) : s.clearInterrupted.now = s.now := rfl
@[simp] theorem clearInterrupted_inputs (s : State) : s.clearInterrupted.inputs = s.inputs := rfl
@[simp] theorem clearInterrupted_script (s : State) : s.clearInterrupted.script = s.script := rfl
@[simp] theorem clearInterrupted_rspOut (s : State) : s.clearInterrupted.rspOut = s.rspOut := rfl
@[simp] theorem clearInterrupted_xpOut (s : State) : s.clearInterrupted.xpOut = s.xpOut := rfl
@[simp] theorem clearInterrupted_regs (s : State) : s.clearInterrupted.regs = s.regs := rfl
@[simp] theorem clearInterrupted_outLatch (s : State) :
    s.clearInterrupted.outLatch = s.outLatch := rfl
@[simp] theorem clearInterrupted_draws (s : State) : s.clearInterrupted.draws = s.draws := rfl

@[simp] theorem setUseIRQ_x (s : State) (en : Bool) : (s.setUseIRQ en).x = s.x := rfl
@[simp] theorem setUseIRQ_address (s : State) (en : Bool) :
    (s.setUseIRQ en).address = s.address := rfl
@[simp] theorem setUseIRQ_useIRQ (s : State) (en : Bool) : (s.setUseIRQ en).useIRQ = en := rfl
@[simp] theorem setUseIRQ_interrupted (s : State) (en : Bool) :
    (s.setUseIRQ en).interrupted = s.interrupted := rfl
@[simp] theorem setUseIRQ_debounceDefault (s : State) (en : Bool) :
    (s.setUseIRQ en).debounceDefault = s.debounceDefault := rfl
@[simp] theorem setUseIRQ_busy (s : State) (en : Bool) : (s.setUseIRQ en).busy = s.busy := rfl
@[simp] theorem setUseIRQ_now (s : State) (en : Bool) : (s.setUseIRQ en).now = s.now := rfl
@[simp] theorem setUseIRQ_inputs (s : State) (en : Bool) : (s.setUseIRQ en).inputs = s.inputs := rfl
@[simp] theorem setUseIRQ_script (s : State) (en : Bool) : (s.setUseIRQ en).script = s.script := rfl
@[simp] theorem setUseIRQ_rspOut (s : State) (en : Bool) : (s.setUseIRQ en).rspOut = s.rspOut := rfl
@[simp] theorem setUseIRQ_xpOut (s : State) (en : Bool) : (s.setUseIRQ en).xpOut = s.xpOut := rfl
@[simp] theorem setUseIRQ_regs (s : State) (en : Bool) : (s.setUseIRQ en).regs = s.regs := rfl
@[simp] theorem setUseIRQ_outLatch (s : State) (en : Bool) :
    (s.setUseIRQ en).outLatch = s.outLatch := rfl
@[simp] theorem setUseIRQ_draws (s : State) (en : Bool) : (s.setUseIRQ en).draws = s.draws := rfl

@[simp] theorem send_x (s : State) (w : ResponseWord) : (s.send w).x = s.x := rfl
@[simp] theorem send_address (s : State) (w : ResponseWord) : (s.send w).address = s.address := rfl
@[simp] theorem send_useIRQ (s : State) (w : ResponseWord) : (s.send w).useIRQ = s.useIRQ := rfl
@[simp] theorem send_interrupted (s : State) (w : ResponseWord) :
    (s.send w).interrupted = s.interrupted := rfl
@[simp] theorem send_debounceDefault (s : State) (w : ResponseWord) :
    (s.send w).debounceDefault = s.debounceDefault := rfl
@[simp] theorem send_busy (s : State) (w : ResponseWord) : (s.send w).busy = none := rfl
@[simp] theorem send_now (s : State) (w : ResponseWord) : (s.send w).now = s.now := rfl
@[simp] theorem send_inputs (s : State) (w : ResponseWord) : (s.send w).inputs = s.inputs := rfl
@[simp] theorem send_script (s : State) (w : ResponseWord) : (s.send w).script = s.script := rfl
@[simp] theorem send_rspOut (s : State) (w : ResponseWord) :
    (s.send w).rspOut = s.rspOut ++ [w] := rfl
@[simp] theorem send_xpOut (s : State) (w : ResponseWord) : (s.send w).xpOut = s.xpOut := rfl
@[simp] theorem send_regs (s : State) (w : ResponseWord) : (s.send w).regs = s.regs := rfl
@[simp] theorem send_outLatch (s : State) (w : ResponseWord) :
    (s.send w).outLatch = s.outLatch := rfl
@[simp] theorem send_draws (s : State) (w : ResponseWord) : (s.send w).draws = s.draws := rfl

@[simp] theorem respond_x (s : State) (d : Mask12) : (s.respond d).x = s.x := rfl
@[simp] theorem respond_address (s : State) (d : Mask12) : (s.respond d).address = s.address := rfl
@[simp] theorem respond_useIRQ (s : State) (d : Mask12) : (s.respond d).useIRQ = s.useIRQ := rfl
@[simp] theorem respond_interrupted (s : State) (d : Mask12) :
    (s.respond d).interrupted = s.interrupted := rfl
@[simp] theorem respond_debounceDefault (s : State) (d : Mask12) :
    (s.respond d).debounceDefault = s.debounceDefault := rfl
@[simp] theorem respond_busy (s : State) (d : Mask12) : (s.respond d).busy = none := rfl
@[simp] theorem respond_now (s : State) (d : Mask12) : (s.respond d).now = s.now := rfl
@[simp] theorem respond_inputs (s : State) (d : Mask12) : (s.respond d).inputs = s.inputs := rfl
@[simp] theorem respond_script (s : State) (d : Mask12) : (s.respond d).script = s.script := rfl
@[simp] theorem respond_rspOut (s : State) (d : Mask12) :
    (s.respond d).rspOut = s.rspOut ++ [0#4 ++ d] := rfl
@[simp] theorem respond_xpOut (s : State) (d : Mask12) : (s.respond d).xpOut = s.xpOut := rfl
@[simp] theorem respond_regs (s : State) (d : Mask12) : (s.respond d).regs = s.regs := rfl
@[simp] theorem respond_outLatch (s : State) (d : Mask12) :
    (s.respond d).outLatch = s.outLatch := rfl
@[simp] theorem respond_draws (s : State) (d : Mask12) : (s.respond d).draws = s.draws := rfl

@[simp] theorem reject_x (s : State) (e : Status) : (s.reject e).x = s.x := rfl
@[simp] theorem reject_address (s : State) (e : Status) : (s.reject e).address = s.address := rfl
@[simp] theorem reject_useIRQ (s : State) (e : Status) : (s.reject e).useIRQ = s.useIRQ := rfl
@[simp] theorem reject_interrupted (s : State) (e : Status) :
    (s.reject e).interrupted = s.interrupted := rfl
@[simp] theorem reject_debounceDefault (s : State) (e : Status) :
    (s.reject e).debounceDefault = s.debounceDefault := rfl
@[simp] theorem reject_busy (s : State) (e : Status) : (s.reject e).busy = none := rfl
@[simp] theorem reject_now (s : State) (e : Status) : (s.reject e).now = s.now := rfl
@[simp] theorem reject_inputs (s : State) (e : Status) : (s.reject e).inputs = s.inputs := rfl
@[simp] theorem reject_script (s : State) (e : Status) : (s.reject e).script = s.script := rfl
@[simp] theorem reject_rspOut (s : State) (e : Status) :
    (s.reject e).rspOut = s.rspOut ++ [statusCode e ++ 0#12] := rfl
@[simp] theorem reject_xpOut (s : State) (e : Status) : (s.reject e).xpOut = s.xpOut := rfl
@[simp] theorem reject_regs (s : State) (e : Status) : (s.reject e).regs = s.regs := rfl
@[simp] theorem reject_outLatch (s : State) (e : Status) : (s.reject e).outLatch = s.outLatch := rfl
@[simp] theorem reject_draws (s : State) (e : Status) : (s.reject e).draws = s.draws := rfl

@[simp] theorem logRequest_x (s : State) (r : Request) : (s.logRequest r).x = s.x := rfl
@[simp] theorem logRequest_address (s : State) (r : Request) :
    (s.logRequest r).address = s.address := rfl
@[simp] theorem logRequest_useIRQ (s : State) (r : Request) :
    (s.logRequest r).useIRQ = s.useIRQ := rfl
@[simp] theorem logRequest_interrupted (s : State) (r : Request) :
    (s.logRequest r).interrupted = s.interrupted := rfl
@[simp] theorem logRequest_debounceDefault (s : State) (r : Request) :
    (s.logRequest r).debounceDefault = s.debounceDefault := rfl
@[simp] theorem logRequest_busy (s : State) (r : Request) : (s.logRequest r).busy = s.busy := rfl
@[simp] theorem logRequest_now (s : State) (r : Request) : (s.logRequest r).now = s.now := rfl
@[simp] theorem logRequest_inputs (s : State) (r : Request) :
    (s.logRequest r).inputs = s.inputs := rfl
@[simp] theorem logRequest_script (s : State) (r : Request) :
    (s.logRequest r).script = s.script := rfl
@[simp] theorem logRequest_rspOut (s : State) (r : Request) :
    (s.logRequest r).rspOut = s.rspOut := rfl
@[simp] theorem logRequest_xpOut (s : State) (r : Request) :
    (s.logRequest r).xpOut = s.xpOut ++ [r.word] := rfl
@[simp] theorem logRequest_regs (s : State) (r : Request) : (s.logRequest r).regs = s.regs := rfl
@[simp] theorem logRequest_outLatch (s : State) (r : Request) :
    (s.logRequest r).outLatch = s.outLatch := rfl
@[simp] theorem logRequest_draws (s : State) (r : Request) : (s.logRequest r).draws = s.draws := rfl

@[simp] theorem dropSlot_x (s : State) : s.dropSlot.x = s.x := rfl
@[simp] theorem dropSlot_address (s : State) : s.dropSlot.address = s.address := rfl
@[simp] theorem dropSlot_useIRQ (s : State) : s.dropSlot.useIRQ = s.useIRQ := rfl
@[simp] theorem dropSlot_interrupted (s : State) : s.dropSlot.interrupted = s.interrupted := rfl
@[simp] theorem dropSlot_debounceDefault (s : State) :
    s.dropSlot.debounceDefault = s.debounceDefault := rfl
@[simp] theorem dropSlot_busy (s : State) : s.dropSlot.busy = s.busy := rfl
@[simp] theorem dropSlot_now (s : State) : s.dropSlot.now = s.now := rfl
@[simp] theorem dropSlot_inputs (s : State) : s.dropSlot.inputs = s.inputs := rfl
@[simp] theorem dropSlot_script (s : State) : s.dropSlot.script = s.script.tail := rfl
@[simp] theorem dropSlot_rspOut (s : State) : s.dropSlot.rspOut = s.rspOut := rfl
@[simp] theorem dropSlot_xpOut (s : State) : s.dropSlot.xpOut = s.xpOut := rfl
@[simp] theorem dropSlot_regs (s : State) : s.dropSlot.regs = s.regs := rfl
@[simp] theorem dropSlot_outLatch (s : State) : s.dropSlot.outLatch = s.outLatch := rfl
@[simp] theorem dropSlot_draws (s : State) : s.dropSlot.draws = s.draws := rfl

@[simp] theorem accept_x (s : State) (ops : List MicroOp) : (s.accept ops).x = s.x := rfl
@[simp] theorem accept_address (s : State) (ops : List MicroOp) :
    (s.accept ops).address = s.address := rfl
@[simp] theorem accept_useIRQ (s : State) (ops : List MicroOp) :
    (s.accept ops).useIRQ = s.useIRQ := rfl
@[simp] theorem accept_interrupted (s : State) (ops : List MicroOp) :
    (s.accept ops).interrupted = s.interrupted := rfl
@[simp] theorem accept_debounceDefault (s : State) (ops : List MicroOp) :
    (s.accept ops).debounceDefault = s.debounceDefault := rfl
@[simp] theorem accept_busy (s : State) (ops : List MicroOp) :
    (s.accept ops).busy = some { todo := ops, t := s.now, held := 0#16, data := 0#12, outstanding := none } := rfl
@[simp] theorem accept_now (s : State) (ops : List MicroOp) : (s.accept ops).now = s.now := rfl
@[simp] theorem accept_inputs (s : State) (ops : List MicroOp) :
    (s.accept ops).inputs = s.inputs := rfl
@[simp] theorem accept_script (s : State) (ops : List MicroOp) :
    (s.accept ops).script = s.script := rfl
@[simp] theorem accept_rspOut (s : State) (ops : List MicroOp) :
    (s.accept ops).rspOut = s.rspOut := rfl
@[simp] theorem accept_xpOut (s : State) (ops : List MicroOp) :
    (s.accept ops).xpOut = s.xpOut := rfl
@[simp] theorem accept_regs (s : State) (ops : List MicroOp) : (s.accept ops).regs = s.regs := rfl
@[simp] theorem accept_outLatch (s : State) (ops : List MicroOp) :
    (s.accept ops).outLatch = s.outLatch := rfl
@[simp] theorem accept_draws (s : State) (ops : List MicroOp) :
    (s.accept ops).draws = s.draws := rfl

@[simp] theorem resetBlock_x (s : State) : s.resetBlock.x = Vector.replicate 12 Channel.reset := rfl
@[simp] theorem resetBlock_address (s : State) : s.resetBlock.address = Config.busAddr := rfl
@[simp] theorem resetBlock_useIRQ (s : State) : s.resetBlock.useIRQ = false := rfl
@[simp] theorem resetBlock_interrupted (s : State) : s.resetBlock.interrupted = false := rfl
@[simp] theorem resetBlock_debounceDefault (s : State) :
    s.resetBlock.debounceDefault = Config.dbdReset := rfl
@[simp] theorem resetBlock_busy (s : State) : s.resetBlock.busy = none := rfl
@[simp] theorem resetBlock_now (s : State) : s.resetBlock.now = s.now := rfl
@[simp] theorem resetBlock_inputs (s : State) : s.resetBlock.inputs = s.inputs := rfl
@[simp] theorem resetBlock_script (s : State) : s.resetBlock.script = s.script := rfl
@[simp] theorem resetBlock_rspOut (s : State) : s.resetBlock.rspOut = s.rspOut := rfl
@[simp] theorem resetBlock_xpOut (s : State) : s.resetBlock.xpOut = s.xpOut := rfl
@[simp] theorem resetBlock_regs (s : State) : s.resetBlock.regs = s.regs := rfl
@[simp] theorem resetBlock_outLatch (s : State) : s.resetBlock.outLatch = s.outLatch := rfl
@[simp] theorem resetBlock_draws (s : State) : s.resetBlock.draws = s.draws := rfl

@[simp] theorem drawByte_x (s : State) : s.drawByte.2.x = s.x := rfl
@[simp] theorem drawByte_address (s : State) : s.drawByte.2.address = s.address := rfl
@[simp] theorem drawByte_useIRQ (s : State) : s.drawByte.2.useIRQ = s.useIRQ := rfl
@[simp] theorem drawByte_interrupted (s : State) : s.drawByte.2.interrupted = s.interrupted := rfl
@[simp] theorem drawByte_debounceDefault (s : State) :
    s.drawByte.2.debounceDefault = s.debounceDefault := rfl
@[simp] theorem drawByte_busy (s : State) : s.drawByte.2.busy = s.busy := rfl
@[simp] theorem drawByte_now (s : State) : s.drawByte.2.now = s.now := rfl
@[simp] theorem drawByte_inputs (s : State) : s.drawByte.2.inputs = s.inputs := rfl
@[simp] theorem drawByte_script (s : State) : s.drawByte.2.script = s.script := rfl
@[simp] theorem drawByte_rspOut (s : State) : s.drawByte.2.rspOut = s.rspOut := rfl
@[simp] theorem drawByte_xpOut (s : State) : s.drawByte.2.xpOut = s.xpOut := rfl
@[simp] theorem drawByte_regs (s : State) : s.drawByte.2.regs = s.regs := rfl
@[simp] theorem drawByte_outLatch (s : State) : s.drawByte.2.outLatch = s.outLatch := rfl
@[simp] theorem drawByte_draws (s : State) : s.drawByte.2.draws = s.draws + 1 := rfl

@[simp] theorem resetChip_x (s : State) : s.resetChip.x = s.x := rfl
@[simp] theorem resetChip_address (s : State) : s.resetChip.address = s.address := rfl
@[simp] theorem resetChip_useIRQ (s : State) : s.resetChip.useIRQ = s.useIRQ := rfl
@[simp] theorem resetChip_interrupted (s : State) : s.resetChip.interrupted = s.interrupted := rfl
@[simp] theorem resetChip_debounceDefault (s : State) :
    s.resetChip.debounceDefault = s.debounceDefault := rfl
@[simp] theorem resetChip_busy (s : State) : s.resetChip.busy = s.busy := rfl
@[simp] theorem resetChip_now (s : State) : s.resetChip.now = s.now := rfl
@[simp] theorem resetChip_inputs (s : State) : s.resetChip.inputs = s.inputs := rfl
@[simp] theorem resetChip_script (s : State) : s.resetChip.script = s.script := rfl
@[simp] theorem resetChip_rspOut (s : State) : s.resetChip.rspOut = s.rspOut := rfl
@[simp] theorem resetChip_xpOut (s : State) : s.resetChip.xpOut = s.xpOut := rfl
@[simp] theorem resetChip_regs (s : State) :
    s.resetChip.regs = [(regConfig2.toNat, config2Reset)] := rfl
@[simp] theorem resetChip_outLatch (s : State) :
    s.resetChip.outLatch = Config.chipByte s.draws := rfl
@[simp] theorem resetChip_draws (s : State) : s.resetChip.draws = s.draws + 1 := rfl

@[simp] theorem driveLatches_x (s : State) (l : Byte) : (s.driveLatches l).x = s.x := rfl
@[simp] theorem driveLatches_address (s : State) (l : Byte) :
    (s.driveLatches l).address = s.address := rfl
@[simp] theorem driveLatches_useIRQ (s : State) (l : Byte) :
    (s.driveLatches l).useIRQ = s.useIRQ := rfl
@[simp] theorem driveLatches_interrupted (s : State) (l : Byte) :
    (s.driveLatches l).interrupted = s.interrupted := rfl
@[simp] theorem driveLatches_debounceDefault (s : State) (l : Byte) :
    (s.driveLatches l).debounceDefault = s.debounceDefault := rfl
@[simp] theorem driveLatches_busy (s : State) (l : Byte) : (s.driveLatches l).busy = s.busy := rfl
@[simp] theorem driveLatches_now (s : State) (l : Byte) : (s.driveLatches l).now = s.now := rfl
@[simp] theorem driveLatches_inputs (s : State) (l : Byte) :
    (s.driveLatches l).inputs = s.inputs := rfl
@[simp] theorem driveLatches_script (s : State) (l : Byte) :
    (s.driveLatches l).script = s.script := rfl
@[simp] theorem driveLatches_rspOut (s : State) (l : Byte) :
    (s.driveLatches l).rspOut = s.rspOut := rfl
@[simp] theorem driveLatches_xpOut (s : State) (l : Byte) :
    (s.driveLatches l).xpOut = s.xpOut := rfl
@[simp] theorem driveLatches_regs (s : State) (l : Byte) :
    (s.driveLatches l).regs = Memory.forget s.regs regGpioDat.toNat := rfl
@[simp] theorem driveLatches_outLatch (s : State) (l : Byte) :
    (s.driveLatches l).outLatch = l := rfl
@[simp] theorem driveLatches_draws (s : State) (l : Byte) :
    (s.driveLatches l).draws = s.draws := rfl

@[simp] theorem storeByte_x (s : State) (reg : RegNo) (v : Byte) :
    (s.storeByte reg v).x = s.x := rfl
@[simp] theorem storeByte_address (s : State) (reg : RegNo) (v : Byte) :
    (s.storeByte reg v).address = s.address := rfl
@[simp] theorem storeByte_useIRQ (s : State) (reg : RegNo) (v : Byte) :
    (s.storeByte reg v).useIRQ = s.useIRQ := rfl
@[simp] theorem storeByte_interrupted (s : State) (reg : RegNo) (v : Byte) :
    (s.storeByte reg v).interrupted = s.interrupted := rfl
@[simp] theorem storeByte_debounceDefault (s : State) (reg : RegNo) (v : Byte) :
    (s.storeByte reg v).debounceDefault = s.debounceDefault := rfl
@[simp] theorem storeByte_busy (s : State) (reg : RegNo) (v : Byte) :
    (s.storeByte reg v).busy = s.busy := rfl
@[simp] theorem storeByte_now (s : State) (reg : RegNo) (v : Byte) :
    (s.storeByte reg v).now = s.now := rfl
@[simp] theorem storeByte_inputs (s : State) (reg : RegNo) (v : Byte) :
    (s.storeByte reg v).inputs = s.inputs := rfl
@[simp] theorem storeByte_script (s : State) (reg : RegNo) (v : Byte) :
    (s.storeByte reg v).script = s.script := rfl
@[simp] theorem storeByte_rspOut (s : State) (reg : RegNo) (v : Byte) :
    (s.storeByte reg v).rspOut = s.rspOut := rfl
@[simp] theorem storeByte_xpOut (s : State) (reg : RegNo) (v : Byte) :
    (s.storeByte reg v).xpOut = s.xpOut := rfl
@[simp] theorem storeByte_outLatch (s : State) (reg : RegNo) (v : Byte) :
    (s.storeByte reg v).outLatch = s.outLatch := rfl
@[simp] theorem storeByte_draws (s : State) (reg : RegNo) (v : Byte) :
    (s.storeByte reg v).draws = s.draws := rfl
@[simp] theorem storeByte_regs (s : State) (reg : RegNo) (v : Byte) :
    (s.storeByte reg v).regs =
      if needsStop reg = true ∧ ¬ s.Stopped then Memory.forget s.regs reg.toNat
      else Memory.write s.regs reg.toNat v := rfl

end Sys2Proof.Machine
end

