-- ==== Sys2Proof/Laws/Transport.lean ====
section
/-! SUPPORT. What the transport operations can change: one frame lemma per operation, and their
effect on the chip's registers. -/

namespace Sys2Proof.Machine

/-- A read of one byte changes at most the count of free values. -/
theorem readByteAt_frame (s : State) (a : Nat) :
    (s.readByteAt a).2 = { s with draws := (s.readByteAt a).2.draws } := by
  unfold State.readByteAt
  cases Memory.read s.regs a <;> rfl

theorem readByteAt_listed {s : State} {a : Nat} {v : Byte} (h : Memory.read s.regs a = some v) :
    s.readByteAt a = (v, s) := by
  simp [State.readByteAt, h]

theorem memRead8_frame (s : State) (reg : RegNo) :
    (s.memRead8 reg).2 = { s with draws := (s.memRead8 reg).2.draws } :=
  readByteAt_frame s reg.toNat

theorem memRead8_listed {s : State} {reg : RegNo} {v : Byte}
    (h : Memory.read s.regs reg.toNat = some v) : s.memRead8 reg = (v, s) :=
  readByteAt_listed h

theorem memRead16_frame (s : State) (reg : RegNo) :
    (s.memRead16 reg).2 = { s with draws := (s.memRead16 reg).2.draws } := by
  have h : ∃ d, (s.memRead16 reg).2 = { s with draws := d } := by
    refine ⟨((s.readByteAt reg.toNat).2.readByteAt (reg.toNat + 1)).2.draws, ?_⟩
    rw [State.memRead16]
    generalize hlo : (s.readByteAt reg.toNat).2 = lo
    have e := readByteAt_frame s reg.toNat
    rw [hlo] at e
    refine (readByteAt_frame lo (reg.toNat + 1)).trans ?_
    generalize (lo.readByteAt (reg.toNat + 1)).2.draws = d
    rw [e]
  obtain ⟨d, h⟩ := h
  rw [h]

theorem memRead16_listed {s : State} {reg : RegNo} {lo hi : Byte}
    (hlo : Memory.read s.regs reg.toNat = some lo)
    (hhi : Memory.read s.regs (reg.toNat + 1) = some hi) : s.memRead16 reg = (hi ++ lo, s) := by
  simp [State.memRead16, readByteAt_listed hlo, readByteAt_listed hhi]

/-- What a read answers, and how many free values it draws, depend on the chip's registers and the
count of free values only. -/
theorem readByteAt_congr {s t : State} (hr : t.regs = s.regs) (hd : t.draws = s.draws) (a : Nat) :
    (t.readByteAt a).1 = (s.readByteAt a).1 ∧
      (t.readByteAt a).2.draws = (s.readByteAt a).2.draws := by
  unfold State.readByteAt State.drawByte
  rw [hr, hd]
  cases Memory.read s.regs a <;> simp [hd]

theorem memRead8_congr {s t : State} (hr : t.regs = s.regs) (hd : t.draws = s.draws) (reg : RegNo) :
    (t.memRead8 reg).1 = (s.memRead8 reg).1 ∧
      (t.memRead8 reg).2.draws = (s.memRead8 reg).2.draws :=
  readByteAt_congr hr hd reg.toNat

theorem memRead16_congr {s t : State} (hr : t.regs = s.regs) (hd : t.draws = s.draws)
    (reg : RegNo) :
    (t.memRead16 reg).1 = (s.memRead16 reg).1 ∧
      (t.memRead16 reg).2.draws = (s.memRead16 reg).2.draws := by
  have lo := readByteAt_congr hr hd reg.toNat
  have regs (u : State) (a : Nat) : (u.readByteAt a).2.regs = u.regs := by
    rw [readByteAt_frame]
  have hi := readByteAt_congr (s := (s.readByteAt reg.toNat).2) (t := (t.readByteAt reg.toNat).2)
    (by rw [regs, regs, hr]) lo.2 (reg.toNat + 1)
  exact ⟨by simp [State.memRead16, lo.1, hi.1], hi.2⟩

/-- A write changes the chip's side only. -/
theorem memWrite8_frame (s : State) (reg : RegNo) (v : Byte) :
    s.memWrite8 reg v = { s with
      regs := (s.memWrite8 reg v).regs
      outLatch := (s.memWrite8 reg v).outLatch
      draws := (s.memWrite8 reg v).draws } := by
  unfold State.memWrite8
  dsimp only
  split_ifs <;> rfl

/-- The chip's side after a write depends on the chip's side before it only. -/
theorem memWrite8_congr {s t : State} (hr : t.regs = s.regs) (hl : t.outLatch = s.outLatch)
    (hd : t.draws = s.draws) (reg : RegNo) (v : Byte) :
    (t.memWrite8 reg v).regs = (s.memWrite8 reg v).regs ∧
      (t.memWrite8 reg v).outLatch = (s.memWrite8 reg v).outLatch ∧
      (t.memWrite8 reg v).draws = (s.memWrite8 reg v).draws := by
  unfold State.memWrite8
  dsimp only
  split_ifs <;> simp [hr, hl, hd]

/-- The registers that need the electrodes stopped, as ranges. -/
theorem needsStop_iff (reg : RegNo) :
    needsStop reg = true ↔
      (0x2B ≤ reg.toNat ∧ reg.toNat ≤ 0x72 ∧ reg ≠ regEcr) ∨
        (0x7B ≤ reg.toNat ∧ reg.toNat ≤ 0x7F) :=
  decide_eq_true_iff

/-- A register that may be written while electrodes run takes the byte. -/
theorem storeByte_free (s : State) {reg : RegNo} (v : Byte) (h : needsStop reg = false) :
    s.storeByte reg v = { s with regs := Memory.write s.regs reg.toNat v } := by
  simp [State.storeByte, h]

/-- While the electrodes are stopped every register takes the byte. -/
theorem storeByte_stopped {s : State} (h : s.Stopped) (reg : RegNo) (v : Byte) :
    s.storeByte reg v = { s with regs := Memory.write s.regs reg.toNat v } := by
  simp [State.storeByte, h]

/-- A register that needs the electrodes stopped is not determined after a write while they may
run. -/
theorem storeByte_running {s : State} {reg : RegNo} (v : Byte) (h : needsStop reg = true)
    (hs : ¬ s.Stopped) :
    s.storeByte reg v = { s with regs := Memory.forget s.regs reg.toNat } := by
  simp [State.storeByte, h, hs]

/-- A store concerns its own register only. -/
theorem storeByte_other (s : State) {reg : RegNo} (v : Byte) {a : Nat} (h : a ≠ reg.toNat) :
    Memory.read (s.storeByte reg v).regs a = Memory.read s.regs a := by
  rw [storeByte_regs]
  split
  · exact Memory.read_forget_other _ h
  · exact Memory.read_write_other _ v h

/-- A write that is no soft reset and acts on no latch stores its byte and does nothing else. -/
theorem memWrite8_stores (s : State) {reg : RegNo} (v : Byte) (h0 : reg ≠ regSoftReset)
    (h1 : reg ≠ regGpioSet) (h2 : reg ≠ regGpioClr) (h3 : reg ≠ regGpioTog) :
    s.memWrite8 reg v = s.storeByte reg v := by
  simp [State.memWrite8, h0, h1, h2, h3]

/-- The same, of a register that may be written while electrodes run. -/
theorem memWrite8_plain (s : State) {reg : RegNo} (v : Byte) (h0 : reg ≠ regSoftReset)
    (h1 : reg ≠ regGpioSet) (h2 : reg ≠ regGpioClr) (h3 : reg ≠ regGpioTog)
    (hn : needsStop reg = false) :
    s.memWrite8 reg v = { s with regs := Memory.write s.regs reg.toNat v } :=
  (memWrite8_stores s v h0 h1 h2 h3).trans (storeByte_free s v hn)

/-- The write of SETTYPE S5: every output latch is low, and the data register is not determined. -/
theorem memWrite8_clr (s : State) (v : Byte) :
    s.memWrite8 regGpioClr v = { s with
      regs := Memory.forget (Memory.write s.regs 0x79 v) 0x75
      outLatch := s.outLatch &&& ~~~v } := by
  have h : s.storeByte 0x79#8 v = { s with regs := Memory.write s.regs 0x79 v } :=
    storeByte_free s v (by decide)
  simp [State.memWrite8, regGpioClr, regSoftReset, regGpioSet, State.driveLatches, regGpioDat, h]

/-- A register number written is below 256, so that every store keeps the canonical form. -/
theorem wf_storeByte {s : State} (h : Memory.wf s.regs) (reg : RegNo) (v : Byte) :
    Memory.wf (s.storeByte reg v).regs := by
  rw [storeByte_regs]
  split
  · exact Memory.wf_forget h _
  · exact Memory.wf_write h reg.isLt v

/-- Every write keeps the canonical form. -/
theorem wf_memWrite8 {s : State} (h : Memory.wf s.regs) (reg : RegNo) (v : Byte) :
    Memory.wf (s.memWrite8 reg v).regs := by
  have hw : Memory.wf (s.storeByte reg v).regs := wf_storeByte h reg v
  unfold State.memWrite8
  dsimp only
  split_ifs
  · exact ⟨by simp, by simp [regConfig2]⟩
  · exact Memory.wf_forget hw _
  · exact Memory.wf_forget hw _
  · exact Memory.wf_forget hw _
  · exact hw

/-- A request changes the chip's side and the count of free values only. -/
theorem perform_frame (s : State) (r : Request) :
    (s.perform r).2 = { s with
      regs := (s.perform r).2.regs
      outLatch := (s.perform r).2.outLatch
      draws := (s.perform r).2.draws } := by
  cases r with
  | read8 d reg =>
    have h : (s.perform (.read8 d reg)).2 = (s.memRead8 reg).2 := rfl
    rw [h, memRead8_frame]
  | read16 d reg =>
    have h : (s.perform (.read16 d reg)).2 = (s.memRead16 reg).2 := rfl
    rw [h, memRead16_frame]
  | write8 d reg v => exact memWrite8_frame s reg v

theorem land_frame (s : State) (r : Request) (landed : Bool) :
    s.land r landed = { s with
      regs := (s.land r landed).regs
      outLatch := (s.land r landed).outLatch
      draws := (s.land r landed).draws } := by
  cases r with
  | read8 d reg => rfl
  | read16 d reg => rfl
  | write8 d reg v => cases landed with
    | false => rfl
    | true => exact memWrite8_frame s reg v

theorem performFailed_frame (s : State) (r : Request) (landed : Bool) :
    s.performFailed r landed = { s with
      regs := (s.performFailed r landed).regs
      outLatch := (s.performFailed r landed).outLatch
      draws := (s.performFailed r landed).draws } :=
  land_frame s r (landed && r.mayLand)

/-- A request that did not land, or a failed read, leaves the chip as it was. -/
@[simp] theorem land_false (s : State) (r : Request) : s.land r false = s := by
  cases r <;> rfl

@[simp] theorem performFailed_false (s : State) (r : Request) : s.performFailed r false = s :=
  land_false s r

@[simp] theorem performFailed_read8 (s : State) (d : BitVec 7) (reg : RegNo) (landed : Bool) :
    s.performFailed (.read8 d reg) landed = s := rfl

@[simp] theorem performFailed_read16 (s : State) (d : BitVec 7) (reg : RegNo) (landed : Bool) :
    s.performFailed (.read16 d reg) landed = s := rfl

/-- A failed write of GPIO_CTL1 leaves the chip as it was (41_gpio_bit_ops.md R128). -/
@[simp] theorem performFailed_ctl1 (s : State) (d : BitVec 7) (v : Byte) (landed : Bool) :
    s.performFailed (.write8 d regGpioCtl1 v) landed = s := by
  simp [State.performFailed, Request.mayLand]

/-- Every other failed write is at the chip if it landed. -/
theorem performFailed_landed (s : State) (d : BitVec 7) {reg : RegNo} (v : Byte)
    (h : reg ≠ regGpioCtl1) : s.performFailed (.write8 d reg v) true = s.memWrite8 reg v := by
  simp [State.performFailed, Request.mayLand, h, State.land]

theorem wf_perform {s : State} (h : Memory.wf s.regs) (r : Request) :
    Memory.wf (s.perform r).2.regs := by
  cases r with
  | read8 d reg => show Memory.wf (s.memRead8 reg).2.regs; rw [memRead8_frame]; exact h
  | read16 d reg => show Memory.wf (s.memRead16 reg).2.regs; rw [memRead16_frame]; exact h
  | write8 d reg v => exact wf_memWrite8 h reg v

theorem wf_land {s : State} (h : Memory.wf s.regs) (r : Request) (landed : Bool) :
    Memory.wf (s.land r landed).regs := by
  cases r with
  | read8 d reg => exact h
  | read16 d reg => exact h
  | write8 d reg v => cases landed with
    | false => exact h
    | true => exact wf_memWrite8 h reg v

theorem wf_performFailed {s : State} (h : Memory.wf s.regs) (r : Request) (landed : Bool) :
    Memory.wf (s.performFailed r landed).regs :=
  wf_land h r (landed && r.mayLand)

/-- Everything an answer can do: the block goes on with the read data, or ends with BUS_ERROR. -/
@[simp] theorem answerOp_ok (s : State) (f : InFlight) (op : MicroOp) (rest : List MicroOp) (r : Request) :
    answerOp s f op rest r .ok = finishOp (s.perform r).2 f op rest (s.perform r).1 := rfl

@[simp] theorem answerOp_error (s : State) (f : InFlight) (op : MicroOp) (rest : List MicroOp) (r : Request)
    (landed : Bool) :
    answerOp s f op rest r (.error landed) = (s.performFailed r landed).reject .busError := rfl

end Sys2Proof.Machine
end

