-- ==== Sys2Proof/Laws/Boot.lean ====
section
/-! SUPPORT. The host's writes in a row: what they can change, and what they store while the
electrodes are stopped. -/

namespace Sys2Proof.Machine

@[simp] theorem busWrites_nil (s : State) : s.busWrites [] = s := rfl

@[simp] theorem busWrites_cons (s : State) (w : RegNo × Byte) (ws : List (RegNo × Byte)) :
    s.busWrites (w :: ws) = (s.memWrite8 w.1 w.2).busWrites ws := rfl

theorem busWrites_append (s : State) (ws vs : List (RegNo × Byte)) :
    s.busWrites (ws ++ vs) = (s.busWrites ws).busWrites vs := by
  simp [State.busWrites]

/-- The host's writes change the chip's side only. -/
theorem busWrites_frame (s : State) (ws : List (RegNo × Byte)) :
    s.busWrites ws = { s with
      regs := (s.busWrites ws).regs
      outLatch := (s.busWrites ws).outLatch
      draws := (s.busWrites ws).draws } := by
  induction ws generalizing s with
  | nil => rfl
  | cons w ws ih =>
    have first := memWrite8_frame s w.1 w.2
    rw [busWrites_cons]
    generalize s.memWrite8 w.1 w.2 = y at first
    refine (ih y).trans ?_
    generalize y.busWrites ws = z
    rw [first]

/-- While the electrodes are stopped, writes that are no soft reset, act on no latch and leave the ECR
alone are stored one after the other, and the electrodes stay stopped. -/
theorem busWrites_stopped {s : State} {ws : List (RegNo × Byte)} (hs : s.Stopped)
    (h : ∀ w ∈ ws, w.1 ≠ regSoftReset ∧ w.1 ≠ regGpioSet ∧ w.1 ≠ regGpioClr ∧ w.1 ≠ regGpioTog ∧
      w.1 ≠ regEcr) :
    (s.busWrites ws).regs = ws.foldl (fun m w => Memory.write m w.1.toNat w.2) s.regs ∧
      (s.busWrites ws).Stopped := by
  induction ws generalizing s with
  | nil => exact ⟨rfl, hs⟩
  | cons w ws ih =>
    obtain ⟨a, b, c, d, e⟩ := h w (by simp)
    rw [busWrites_cons, memWrite8_stores s w.2 a b c d, storeByte_stopped hs]
    refine ih ?_ fun v hv => h v (List.mem_cons_of_mem _ hv)
    exact (Memory.read_write_other _ _ fun he => e (BitVec.eq_of_toNat_eq he.symm)).trans hs

end Sys2Proof.Machine
end

