-- ==== Sys2Proof/Laws/Channels.lean ====
section
/-! SUPPORT. Reading channel records and operands after the operations on them. -/

namespace Sys2Proof.Machine

@[simp] theorem channelOf_operand (c : ChannelIx) : channelOf (channelOperand c) = some c := by
  revert c; decide

theorem channelOf_eq_some {ch : BitVec 4} {c : ChannelIx} (h : channelOf ch = some c) :
    ch = channelOperand c := by
  revert ch c; decide

theorem channelOf_eq_none {ch : BitVec 4} (h : 11 < ch.toNat) : channelOf ch = none := by
  revert ch; decide

@[simp] theorem roleOf_code (r : Role) : roleOf r.code = some r := by
  cases r <;> rfl

theorem roleOf_eq_some {code : BitVec 2} {r : Role} (h : roleOf code = some r) : code = r.code := by
  revert code r
  intro code r
  cases r <;> revert code <;> decide

@[simp] theorem withChannel_operand (s : State) (c : ChannelIx) (k : ChannelIx → State) :
    s.withChannel (channelOperand c) k = k c := by
  simp [State.withChannel]

/-- A record after one record has been replaced. -/
theorem chan_setChan (s : State) (c j : ChannelIx) (v : Channel) :
    (s.setChan c v).chan j = if j = c then v else s.chan j := by
  simp only [State.chan, setChan_x, Vector.getElem_set, Fin.ext_iff]
  simp [eq_comm]

@[simp] theorem chan_setChan_self (s : State) (c : ChannelIx) (v : Channel) :
    (s.setChan c v).chan c = v := by
  simp [chan_setChan]

theorem chan_setChan_other (s : State) {c j : ChannelIx} (v : Channel) (h : j ≠ c) :
    (s.setChan c v).chan j = s.chan j := by
  simp [chan_setChan, h]

@[simp] theorem chan_clearLevels (s : State) (j : ChannelIx) :
    s.clearLevels.chan j = { s.chan j with gpioOutputHigh := false } := by
  simp [State.chan, State.clearLevels]

@[simp] theorem chan_resetBlock (s : State) (j : ChannelIx) : s.resetBlock.chan j = Channel.reset := by
  simp [State.chan]

theorem chan_setRole (s : State) (c j : ChannelIx) (r : Role) :
    (s.setRole c r).chan j = { s.chan j with role := roleUpdate s.role c r j } := by
  rw [State.setRole, chan_setChan]
  by_cases h : j = c <;> simp [h, roleUpdate, State.role]

theorem role_setRole (s : State) (c : ChannelIx) (r : Role) :
    (s.setRole c r).role = roleUpdate s.role c r := by
  funext j
  simp [State.role, chan_setRole]

@[simp] theorem role_clearLevels (s : State) : s.clearLevels.role = s.role := by
  funext j
  simp [State.role]

/-- A record depends on the channel file only. -/
theorem chan_congr {s t : State} (h : t.x = s.x) (c : ChannelIx) : t.chan c = s.chan c := by
  simp [State.chan, h]

theorem role_congr {s t : State} (h : t.x = s.x) : t.role = s.role := by
  funext c
  simp [State.role, chan_congr h]

theorem elapsed_iff (s : State) (c : ChannelIx) (t : Time) :
    s.elapsed c t = true ↔
      (s.deb c).toNat ≤ (timeDiff t (s.chan c).lastTouchTimestamp).toNat := by
  simp [State.elapsed]

/-- The window depends on the channel's record and the device-wide value only. -/
theorem elapsed_congr {s t : State} {c : ChannelIx} (h : t.chan c = s.chan c)
    (hd : t.debounceDefault = s.debounceDefault) (at_ : Time) :
    t.elapsed c at_ = s.elapsed c at_ := by
  simp only [State.elapsed, State.deb, h, hd]

end Sys2Proof.Machine
end

