-- ==== Sys2Proof/Laws/Decode.lean ====
section
/-! SUPPORT. The three fields of a command word, put together and taken apart (30_encoding.md
R80). -/

namespace Sys2Proof

@[simp] theorem opField_cmdWord (op ch : BitVec 4) (v : BitVec 16) :
    opField (cmdWord op ch v) = op := by
  unfold opField cmdWord
  rw [BitVec.extractLsb'_append_eq_of_le (by omega), BitVec.extractLsb'_append_eq_of_le (by omega)]
  simp

@[simp] theorem chField_cmdWord (op ch : BitVec 4) (v : BitVec 16) :
    chField (cmdWord op ch v) = ch := by
  unfold chField cmdWord
  rw [BitVec.extractLsb'_append_eq_of_le (by omega),
    BitVec.extractLsb'_append_eq_of_add_le (by omega)]
  simp

@[simp] theorem immField_cmdWord (op ch : BitVec 4) (v : BitVec 16) :
    immField (cmdWord op ch v) = v := by
  unfold immField cmdWord
  rw [BitVec.extractLsb'_append_eq_of_add_le (by omega)]
  simp

/-- A word is its three fields. -/
theorem cmdWord_fields (w : CommandWord) : cmdWord (opField w) (chField w) (immField w) = w := by
  unfold cmdWord opField chField immField
  apply BitVec.eq_of_getLsbD_eq
  intro i hi
  simp only [BitVec.getLsbD_append, BitVec.getLsbD_extractLsb']
  split_ifs with h1 h2
  · simp [h1]
  · have h3 : 16 + (i - 16) = i := by omega
    simp [h2, h3]
  · have h3 : 20 + (i - 16 - 4) = i := by omega
    have h4 : i - 16 - 4 < 4 := by omega
    simp [h3, h4]

/-- Bitwise AND goes field by field, as the masks of R84 do. -/
theorem cmdWord_and (op ch op' ch' : BitVec 4) (v v' : BitVec 16) :
    cmdWord op ch v &&& cmdWord op' ch' v' = cmdWord (op &&& op') (ch &&& ch') (v &&& v') := by
  unfold cmdWord
  apply BitVec.eq_of_getLsbD_eq
  intro i hi
  simp only [BitVec.getLsbD_and, BitVec.getLsbD_append]
  split_ifs <;> simp

end Sys2Proof
end

