-- ==== Sys2Proof/Laws/Exec.lean ====
section
/-! SUPPORT. Everything a command can do in S0: it is refused, or ends at once, or is accepted with
its micro-steps. -/

namespace Sys2Proof.Machine

/-- A command is refused; or answers at once, having changed nothing but what a configuration command
sets; or starts its micro-steps. -/
theorem exec_cases (i : Instr) (s : State) :
    (∃ c, exec i s = .next (s.reject c)) ∨
    (∃ d, exec i s = .next (s.respond d)) ∨
    (∃ en, i = .useirq en ∧ exec i s = .next ((s.setUseIRQ en).respond 0#12)) ∨
    (∃ v, i = .setdbd v ∧
      exec i s = .next (({ s with debounceDefault := v } : State).respond 0#12)) ∨
    (∃ c v, i = .setdbc (channelOperand c) v ∧
      exec i s =
        .next ((s.setChan c { s.chan c with dbv := true, debounce := v }).respond 0#12)) ∨
    (∃ c, i = .clrdbc (channelOperand c) ∧
      exec i s = .next ((s.setChan c { s.chan c with dbv := false }).respond 0#12)) ∨
    (i = .tchall ∧ exec i s = .next (s.start (aggOps s))) ∨
    (∃ c, i = .tchch (channelOperand c) ∧ gatePasses s c ∧
      exec i s = .next (s.start (aggOps s ++ [.judgeTouch c]))) ∨
    (∃ c r, i = .settype (channelOperand c) r.code ∧ settypeAccepted s c r ∧
      exec i s = .next (s.start (settypeOps c r))) ∨
    (∃ c up, (i = .pullup (channelOperand c) ∧ up = true ∨
        i = .pulldn (channelOperand c) ∧ up = false) ∧ s.role c = .gpioIn ∧
      exec i s = .next (s.start
        (rmwOps regGpioCtl0 (gpioBit c) true ++ rmwOps regGpioCtl1 (gpioBit c) up))) ∨
    (∃ c en, i = .gpioen (channelOperand c) en ∧ s.role c ≠ .sensor ∧
      exec i s = .next (s.start (rmwOps regGpioEn (gpioBit c) en))) ∨
    (∃ c, i = .gpiost (channelOperand c) ∧ s.role c = .gpioIn ∧
      exec i s = .next (s.start [.readRegister regGpioDat, .cacheLevel c])) := by
  have bad : ∀ ch : BitVec 4, channelOf ch = none ∨ ∃ c, ch = channelOperand c := by
    intro ch
    cases h : channelOf ch with
    | none => exact .inl rfl
    | some c => exact .inr ⟨c, channelOf_eq_some h⟩
  cases i with
  | tchall => simp [exec, execTchall]
  | useirq en => simp [exec, execUseirq]
  | setdbd v => simp [exec, execSetdbd]
  | setdbc ch v =>
    rcases bad ch with h | ⟨c, rfl⟩
    · left
      exact ⟨.badChannel, by simp [exec, execSetdbc, State.withChannel, h]⟩
    · iterate 4 right
      left; exact ⟨c, v, rfl, by simp [exec, execSetdbc]⟩
  | clrdbc ch =>
    rcases bad ch with h | ⟨c, rfl⟩
    · left
      exact ⟨.badChannel, by simp [exec, execClrdbc, State.withChannel, h]⟩
    · iterate 5 right
      left; exact ⟨c, rfl, by simp [exec, execClrdbc]⟩
  | tchch ch =>
    rcases bad ch with h | ⟨c, rfl⟩
    · left
      exact ⟨.badChannel, by simp [exec, execTchch, State.withChannel, h]⟩
    · by_cases h1 : s.role c = .gpioOut
      · right; left; exact ⟨0#12, by simp [exec, execTchch, queryChannel, h1]⟩
      · by_cases h2 : (s.chan c).touched = .idle ∧ s.elapsed c s.now = false
        · right; left; exact ⟨0#12, by simp [exec, execTchch, queryChannel, h1, h2]⟩
        · iterate 7 right
          left
          refine ⟨c, rfl, ⟨h1, ?_⟩, by simp [exec, execTchch, queryChannel, h1, h2]⟩
          cases ht : (s.chan c).touched <;> simp_all
  | settype ch role =>
    rcases bad ch with h | ⟨c, rfl⟩
    · left
      exact ⟨.badChannel, by simp [exec, execSettype, State.withChannel, h]⟩
    · cases hr : roleOf role with
      | none => left; exact ⟨.badRole, by simp [exec, execSettype, assignType, hr]⟩
      | some r =>
        by_cases h1 : c.val < 4 ∧ r ≠ .sensor
        · left; exact ⟨.sensorOnly, by simp [exec, execSettype, assignType, hr, h1]⟩
        · by_cases h2 : layoutOk s.role c r = false
          · left
            refine ⟨.layout, ?_⟩
            simp only [exec, execSettype, withChannel_operand, assignType, hr, h1, h2]
            simp
          · iterate 8 right
            left
            obtain rfl := roleOf_eq_some hr
            refine ⟨c, r, rfl,
              ⟨fun h => by_contra fun h' => h1 ⟨h, h'⟩, by simpa [layoutOk] using h2⟩, ?_⟩
            simp only [exec, execSettype, withChannel_operand, assignType, hr, h1, h2, if_false]
            simp
  | pullup ch =>
    rcases bad ch with h | ⟨c, rfl⟩
    · left
      exact ⟨.badChannel, by simp [exec, execPullup, State.withChannel, h]⟩
    · by_cases h1 : s.role c = .gpioIn
      · iterate 9 right
        left
        exact ⟨c, true, .inl ⟨rfl, rfl⟩, h1, by simp [exec, execPullup, pullChannel, h1]⟩
      · left
        exact ⟨.wrongRole, by simp [exec, execPullup, pullChannel, h1]⟩
  | pulldn ch =>
    rcases bad ch with h | ⟨c, rfl⟩
    · left
      exact ⟨.badChannel, by simp [exec, execPulldn, State.withChannel, h]⟩
    · by_cases h1 : s.role c = .gpioIn
      · iterate 9 right
        left
        exact ⟨c, false, .inr ⟨rfl, rfl⟩, h1, by simp [exec, execPulldn, pullChannel, h1]⟩
      · left
        exact ⟨.wrongRole, by simp [exec, execPulldn, pullChannel, h1]⟩
  | gpioen ch en =>
    rcases bad ch with h | ⟨c, rfl⟩
    · left
      exact ⟨.badChannel, by simp [exec, execGpioen, State.withChannel, h]⟩
    · by_cases h1 : s.role c = .sensor
      · right; left; exact ⟨0#12, by simp [exec, execGpioen, enableChannel, h1]⟩
      · iterate 10 right
        left; exact ⟨c, en, rfl, h1, by simp [exec, execGpioen, enableChannel, h1]⟩
  | gpiost ch =>
    rcases bad ch with h | ⟨c, rfl⟩
    · left
      exact ⟨.badChannel, by simp [exec, execGpiost, State.withChannel, h]⟩
    · cases h1 : s.role c with
      | sensor => left; exact ⟨.wrongRole, by simp [exec, execGpiost, statusChannel, h1]⟩
      | gpioOut => right; left; exact ⟨_, by simp [exec, execGpiost, statusChannel, h1]; rfl⟩
      | gpioIn =>
        iterate 11 right
        exact ⟨c, rfl, h1, by simp [exec, execGpiost, statusChannel, h1]⟩

end Sys2Proof.Machine
end

