-- ==== Sys2Proof/Laws/PerInstr.lean ====
section
/-! SUPPORT. Facts stated per instruction: the encoding of an instruction selects a row of the
opcode map (30_encoding.md R84) that carries its mnemonic. -/

namespace Sys2Proof.Laws.EncodingRow

/-- The word of `i` selects a row of the opcode map with the mnemonic of `i`. -/
def Statement (i : Instr) : Prop :=
  ∃ row ∈ opcodeTable, row.mnemonic = i.mnemonic ∧ row.selects (encode i)

/-- The AND with a mask, field by field. -/
theorem and_mask (op ch : BitVec 4) (v : BitVec 16) (mask : CommandWord) :
    cmdWord op ch v &&& mask =
      cmdWord (op &&& opField mask) (ch &&& chField mask) (v &&& immField mask) := by
  rw [← cmdWord_and, cmdWord_fields]

theorem tchall : Statement .tchall := ⟨⟨"TCHALL", 0x100000#24, 0xFFFFFF#24⟩, by decide⟩

theorem tchch (ch : BitVec 4) : Statement (.tchch ch) :=
  ⟨⟨"TCHCH", 0x200000#24, 0xF0FFFF#24⟩, by revert ch; decide⟩

theorem useirq (en : Bool) : Statement (.useirq en) :=
  ⟨⟨"USEIRQ", 0x300000#24, 0xFFFFFE#24⟩, by revert en; decide⟩

theorem settype (ch : BitVec 4) (role : BitVec 2) : Statement (.settype ch role) :=
  ⟨⟨"SETTYPE", 0x400000#24, 0xF0FFFC#24⟩, by revert ch role; decide⟩

theorem setdbd (v : Millis) : Statement (.setdbd v) :=
  ⟨⟨"SETDBD", 0x500000#24, 0xFF0000#24⟩, by simp [opcodeTable], rfl, by
    have h : v &&& immField 0xFF0000#24 = 0#16 := by
      rw [show immField 0xFF0000#24 = 0#16 by decide]
      simp
    rw [OpcodeRow.selects, encode, and_mask, h]
    decide⟩

theorem setdbc (ch : BitVec 4) (v : Millis) : Statement (.setdbc ch v) :=
  ⟨⟨"SETDBC", 0x600000#24, 0xF00000#24⟩, by simp [opcodeTable], rfl, by
    have h : v &&& immField 0xF00000#24 = 0#16 := by
      rw [show immField 0xF00000#24 = 0#16 by decide]
      simp
    rw [OpcodeRow.selects, encode, and_mask, h]
    revert ch
    decide⟩

theorem clrdbc (ch : BitVec 4) : Statement (.clrdbc ch) :=
  ⟨⟨"CLRDBC", 0x700000#24, 0xF0FFFF#24⟩, by revert ch; decide⟩

theorem pullup (ch : BitVec 4) : Statement (.pullup ch) :=
  ⟨⟨"PULLUP", 0x800000#24, 0xF0FFFF#24⟩, by revert ch; decide⟩

theorem pulldn (ch : BitVec 4) : Statement (.pulldn ch) :=
  ⟨⟨"PULLDN", 0x900000#24, 0xF0FFFF#24⟩, by revert ch; decide⟩

theorem gpioen (ch : BitVec 4) (en : Bool) : Statement (.gpioen ch en) :=
  ⟨⟨"GPIOEN", 0xA00000#24, 0xF0FFFE#24⟩, by revert ch en; decide⟩

theorem gpiost (ch : BitVec 4) : Statement (.gpiost ch) :=
  ⟨⟨"GPIOST", 0xB00000#24, 0xF0FFFF#24⟩, by revert ch; decide⟩

end Sys2Proof.Laws.EncodingRow
end

