-- ==== Sys2Proof/Laws/Run.lean ====
section
/-! SUPPORT. The sequencer: what one event and one micro-step can do, how a command runs, and how it
runs in a quiet environment. -/

namespace Sys2Proof.Machine

/-! ## Events -/

/-- An event other than `rst` changes the latch, the time input and the chip's side only. -/
theorem applyEvent_frame (s : State) {e : Event} (h : ∀ b, e ≠ .rst b) :
    s.applyEvent e = { s with
      interrupted := (s.applyEvent e).interrupted
      now := (s.applyEvent e).now
      regs := (s.applyEvent e).regs
      outLatch := (s.applyEvent e).outLatch
      draws := (s.applyEvent e).draws } := by
  cases e with
  | fireIrq => rfl
  | rst b => exact absurd rfl (h b)
  | chipByte reg v => rfl
  | busWrite reg v =>
    have e : s.applyEvent (.busWrite reg v) = s.memWrite8 reg v := rfl
    rw [e, memWrite8_frame]
  | chipReset => rfl
  | setNow v => rfl

theorem applyEvents_frame (s : State) {es : List Event} (h : ∀ b, Event.rst b ∉ es) :
    s.applyEvents es = { s with
      interrupted := (s.applyEvents es).interrupted
      now := (s.applyEvents es).now
      regs := (s.applyEvents es).regs
      outLatch := (s.applyEvents es).outLatch
      draws := (s.applyEvents es).draws } := by
  induction es generalizing s with
  | nil => rfl
  | cons e es ih =>
    have he : ∀ b, e ≠ .rst b := fun b hb => h b (by simp [hb])
    have hes : ∀ b, Event.rst b ∉ es := fun b hb => h b (List.mem_cons_of_mem _ hb)
    have first := applyEvent_frame s he
    have split : s.applyEvents (e :: es) = (s.applyEvent e).applyEvents es := rfl
    rw [split]
    generalize s.applyEvent e = y at first
    refine (ih y hes).trans ?_
    generalize y.applyEvents es = z
    rw [first]

/-- `rst` leaves the block reset and idle; ports and script are kept. -/
theorem rst_frame (s : State) (landed : Bool) :
    s.rst landed = { s.resetBlock with
      regs := (s.rst landed).regs
      outLatch := (s.rst landed).outLatch
      draws := (s.rst landed).draws } := by
  cases h : s.outstanding with
  | none => simp only [State.rst, h]
  | some r =>
    have e : s.rst landed = (s.land r landed).resetBlock := by simp only [State.rst, h]
    rw [e, land_frame]
    rfl

/-- After events the command in progress is still in progress, as it was, or `rst` ended it. -/
theorem applyEvents_busy (s : State) (es : List Event) :
    (s.applyEvents es).busy = s.busy ∨ (s.applyEvents es).busy = none := by
  induction es generalizing s with
  | nil => exact .inl rfl
  | cons e es ih =>
    have he : (s.applyEvent e).busy = s.busy ∨ (s.applyEvent e).busy = none := by
      by_cases h : ∃ b, e = .rst b
      · obtain ⟨b, rfl⟩ := h
        right
        have e : s.applyEvent (.rst b) = s.rst b := rfl
        rw [e, rst_frame]
        rfl
      · left
        rw [applyEvent_frame s fun b hb => h ⟨b, hb⟩]
    rcases ih (s.applyEvent e) with h | h
    · show ((s.applyEvent e).applyEvents es).busy = _ ∨ _
      rcases he with he | he
      · exact .inl (h.trans he)
      · exact .inr (h.trans he)
    · exact .inr h

/-- Every event keeps the canonical form of the chip's registers. -/
theorem wf_applyEvent {s : State} (h : Memory.wf s.regs) (e : Event) :
    Memory.wf (s.applyEvent e).regs := by
  cases e with
  | fireIrq => exact h
  | rst b =>
    show Memory.wf (s.rst b).regs
    cases ho : s.outstanding with
    | none => simp only [State.rst, ho]; exact h
    | some r => simp only [State.rst, ho]; exact wf_land h r b
  | chipByte reg v => exact Memory.wf_write h reg.isLt v
  | busWrite reg v => exact wf_memWrite8 h reg v
  | chipReset => exact ⟨by simp [State.applyEvent, State.resetChip], by
      simp [State.applyEvent, State.resetChip, regConfig2]⟩
  | setNow v => exact h

/-! ## Quiet environments -/

theorem State.QuietFor.mono {s : State} {m n : Nat} (h : s.QuietFor n) (hmn : m ≤ n) : s.QuietFor m :=
  fun slot hslot => h slot (List.take_subset_take_left _ hmn hslot)

theorem State.QuietFor.nextSlot {s : State} {n : Nat} (h : s.QuietFor (n + 1)) :
    s.nextSlot = Slot.quiet := by
  unfold State.nextSlot
  cases hs : s.script with
  | nil => rfl
  | cons a rest => exact h a (by simp [hs])

theorem State.QuietFor.dropSlot {s : State} {n : Nat} (h : s.QuietFor (n + 1)) :
    s.dropSlot.QuietFor n := by
  intro slot hslot
  apply h slot
  cases hs : s.script with
  | nil => simp [hs] at hslot
  | cons a rest => simp only [dropSlot_script, hs, List.tail_cons] at hslot; simp [hslot]

theorem quietFor_congr {s t : State} (h : t.script = s.script) {n : Nat} (hq : s.QuietFor n) :
    t.QuietFor n := by
  intro slot hslot
  exact hq slot (h ▸ hslot)

/-! ## Micro-steps -/

/-- The instant of a micro-step: the script has moved on and the slot's events have happened. -/
abbrev State.arrive (s : State) : State := s.dropSlot.applyEvents s.nextSlot.events

/-- Everything a micro-step can do: `rst` fell before it, or it ends without a request, or its request
is answered, or its request waits. -/
theorem microStep_cases (s : State) (f : InFlight) (op : MicroOp) (rest : List MicroOp) :
    (s.arrive.busy = none ∧ microStep s f op rest = s.arrive) ∨
    (s.arrive.busy ≠ none ∧
      ((opRequest s.arrive f op = none ∧ microStep s f op rest = finishOp s.arrive f op rest 0#16) ∨
      (∃ r a, opRequest s.arrive f op = some r ∧ s.nextSlot.answer = some a ∧
        microStep s f op rest = answerOp (s.arrive.logRequest r) f op rest r a) ∨
      (∃ r, opRequest s.arrive f op = some r ∧ s.nextSlot.answer = none ∧
        microStep s f op rest =
          { s.arrive.logRequest r with busy := some { f with outstanding := some r } }))) := by
  unfold microStep
  cases hb : s.arrive.busy with
  | none => left; simp only [State.arrive] at hb; simp [hb]
  | some g =>
    right
    refine ⟨by simp, ?_⟩
    simp only [State.arrive] at hb ⊢
    simp only [hb]
    cases hr : opRequest (s.dropSlot.applyEvents s.nextSlot.events) f op with
    | none => left; simp
    | some r =>
      right
      cases ha : s.nextSlot.answer with
      | none => right; exact ⟨r, by simp⟩
      | some a => left; exact ⟨r, a, by simp⟩

/-- A micro-step without a request, when the events before it leave the command in progress. -/
theorem microStep_silent {s : State} {f : InFlight} {op : MicroOp} {rest : List MicroOp}
    {g : InFlight} (hb : (s.dropSlot.applyEvents s.nextSlot.events).busy = some g)
    (hr : opRequest (s.dropSlot.applyEvents s.nextSlot.events) f op = none) :
    microStep s f op rest = finishOp (s.dropSlot.applyEvents s.nextSlot.events) f op rest 0#16 := by
  simp [microStep, hb, hr]

/-- A micro-step with a request that is answered. -/
theorem microStep_answered {s : State} {f : InFlight} {op : MicroOp} {rest : List MicroOp}
    {g : InFlight} {r : Request} {a : Answer}
    (hb : (s.dropSlot.applyEvents s.nextSlot.events).busy = some g)
    (hr : opRequest (s.dropSlot.applyEvents s.nextSlot.events) f op = some r)
    (ha : s.nextSlot.answer = some a) :
    microStep s f op rest =
      answerOp ((s.dropSlot.applyEvents s.nextSlot.events).logRequest r) f op rest r a := by
  simp [microStep, hb, hr, ha]

/-- A micro-step at a quiet slot. -/
theorem microStep_quiet {s : State} {f g : InFlight} {op : MicroOp} {rest : List MicroOp} {n : Nat}
    (hb : s.busy = some g) (hq : s.QuietFor (n + 1)) :
    microStep s f op rest =
      match opRequest s f op with
      | none => finishOp s.dropSlot f op rest 0#16
      | some r =>
        finishOp ((s.dropSlot.logRequest r).perform r).2 f op rest
          ((s.dropSlot.logRequest r).perform r).1 := by
  have hs := hq.nextSlot
  have hop : opRequest s.dropSlot f op = opRequest s f op := by cases op <;> rfl
  simp only [microStep, hs, Slot.quiet, State.applyEvents, List.foldl_nil, dropSlot_busy, hb, hop]
  cases opRequest s f op <;> rfl

/-! ## Running a command -/

/-- The response, when no micro-step is left. -/
theorem runMicro_done {n : Nat} {s : State} {f : InFlight} (hb : s.busy = some f)
    (ho : f.outstanding = none) (ht : f.todo = []) : runMicro (n + 1) s = s.respond f.data := by
  simp [runMicro, hb, ho, ht]

/-- One more micro-step. -/
theorem runMicro_step {n : Nat} {s : State} {f : InFlight} {op : MicroOp} {rest : List MicroOp}
    (hb : s.busy = some f) (ho : f.outstanding = none) (ht : f.todo = op :: rest) :
    runMicro (n + 1) s = runMicro n (microStep s f op rest) := by
  simp [runMicro, hb, ho, ht]

/-- An idle block does not move. -/
@[simp] theorem runMicro_idle {n : Nat} {s : State} (hb : s.busy = none) : runMicro n s = s := by
  cases n <;> simp [runMicro, hb]

/-- A waiting block does not move. -/
theorem runMicro_waiting {n : Nat} {s : State} {f : InFlight} {r : Request} (hb : s.busy = some f)
    (ho : f.outstanding = some r) : runMicro n s = s := by
  cases n <;> simp [runMicro, hb, ho]

/-- A command that goes on after a micro-step has one micro-step less to run. -/
theorem microStep_todo {s : State} {f : InFlight} {op : MicroOp} {rest : List MicroOp} {g : InFlight}
    (hb : (microStep s f op rest).busy = some g) (ho : g.outstanding = none) : g.todo = rest := by
  rcases microStep_cases s f op rest with ⟨h, e⟩ | ⟨-, ⟨-, e⟩ | ⟨r, a, -, -, e⟩ | ⟨r, -, -, e⟩⟩
  · rw [e, h] at hb; cases hb
  · rw [e] at hb; cases hb; rfl
  · rw [e] at hb
    cases a with
    | ok => cases hb; rfl
    | error l => cases hb
  · rw [e] at hb; cases hb; cases ho

/-- To show something of a run it is enough to show something of its start that every micro-step
keeps and that yields the conclusion where the run ends: at the response, after `rst`, or at a request
that waits. -/
theorem run_induction {P Q : State → Prop}
    (step : ∀ s f op rest, P s → s.busy = some f → f.outstanding = none → f.todo = op :: rest →
      P (microStep s f op rest))
    (done : ∀ s f, P s → s.busy = some f → f.outstanding = none → f.todo = [] → Q (s.respond f.data))
    (idle : ∀ s, P s → s.busy = none → Q s)
    (waiting : ∀ s f r, P s → s.busy = some f → f.outstanding = some r → Q s)
    {s : State} (h : P s) : Q s.run := by
  have key : ∀ n (s : State), P s →
      (∀ f, s.busy = some f → f.outstanding = none → f.todo.length < n) → Q (runMicro n s) := by
    intro n
    induction n with
    | zero =>
      intro s h hn
      show Q s
      cases hb : s.busy with
      | none => exact idle s h hb
      | some f =>
        cases ho : f.outstanding with
        | some r => exact waiting s f r h hb ho
        | none => exact absurd (hn f hb ho) (by omega)
    | succ n ih =>
      intro s h hn
      cases hb : s.busy with
      | none => rw [runMicro_idle hb]; exact idle s h hb
      | some f =>
        cases ho : f.outstanding with
        | some r => rw [runMicro_waiting hb ho]; exact waiting s f r h hb ho
        | none =>
          cases ht : f.todo with
          | nil => rw [runMicro_done hb ho ht]; exact done s f h hb ho ht
          | cons op rest =>
            rw [runMicro_step hb ho ht]
            refine ih _ (step s f op rest h hb ho ht) fun g hg hgo => ?_
            rw [microStep_todo hg hgo]
            have := hn f hb ho
            rw [ht] at this
            simpa using this
  unfold State.run
  cases hb : s.busy with
  | none => exact idle s h hb
  | some f => exact key _ s h fun g hg _ => by cases hb.symm.trans hg; omega

/-! ## The ports and the script -/

/-- No event sends anything, or touches the inputs or the script. -/
theorem applyEvents_ports (s : State) (es : List Event) :
    (s.applyEvents es).rspOut = s.rspOut ∧ (s.applyEvents es).xpOut = s.xpOut ∧
      (s.applyEvents es).inputs = s.inputs ∧ (s.applyEvents es).script = s.script := by
  induction es generalizing s with
  | nil => exact ⟨rfl, rfl, rfl, rfl⟩
  | cons e es ih =>
    have he : (s.applyEvent e).rspOut = s.rspOut ∧ (s.applyEvent e).xpOut = s.xpOut ∧
        (s.applyEvent e).inputs = s.inputs ∧ (s.applyEvent e).script = s.script := by
      by_cases h : ∃ b, e = .rst b
      · obtain ⟨b, rfl⟩ := h
        have e : s.applyEvent (.rst b) = s.rst b := rfl
        rw [e, rst_frame]
        exact ⟨rfl, rfl, rfl, rfl⟩
      · rw [applyEvent_frame s fun b hb => h ⟨b, hb⟩]
        exact ⟨rfl, rfl, rfl, rfl⟩
    have split : s.applyEvents (e :: es) = (s.applyEvent e).applyEvents es := rfl
    rw [split]
    have := ih (s.applyEvent e)
    simp_all

theorem arrive_ports (s : State) :
    s.arrive.rspOut = s.rspOut ∧ s.arrive.xpOut = s.xpOut ∧ s.arrive.inputs = s.inputs ∧
      s.arrive.script = s.script.tail :=
  applyEvents_ports s.dropSlot _

/-- The coming slot is the script's first, or quiet. -/
theorem nextSlot_mem (s : State) : s.nextSlot = Slot.quiet ∨ s.nextSlot ∈ s.script := by
  unfold State.nextSlot
  cases s.script <;> simp

/-- Without `rst`, what happens just before a micro-step leaves the block's registers alone, but for
the interrupt latch. -/
theorem arrive_block {s : State} (h : s.NoRstInside) :
    s.arrive.x = s.x ∧ s.arrive.busy = s.busy ∧ s.arrive.address = s.address ∧
      s.arrive.useIRQ = s.useIRQ ∧ s.arrive.debounceDefault = s.debounceDefault := by
  have hr : ∀ b, Event.rst b ∉ s.nextSlot.events := by
    intro b
    rcases nextSlot_mem s with e | e
    · rw [e]; simp [Slot.quiet]
    · exact h _ e b
  rw [State.arrive, applyEvents_frame _ hr]
  exact ⟨rfl, rfl, rfl, rfl, rfl⟩

/-- A micro-step's effect is on the channel records and the interrupt latch only. -/
theorem opEffect_frame (s : State) (f : InFlight) (op : MicroOp) :
    opEffect s f op =
      { s with x := (opEffect s f op).x, interrupted := (opEffect s f op).interrupted } := by
  cases op <;> rfl

/-- What a micro-step requests depends on the channel records and the bus address only. -/
theorem opRequest_congr {s t : State} {f : InFlight} {op : MicroOp} (hx : t.x = s.x)
    (ha : t.address = s.address) : opRequest t f op = opRequest s f op := by
  have := role_congr hx
  cases op <;> simp [opRequest, this, ha]

end Sys2Proof.Machine
end

