-- ==== Sys2Proof/Laws/Quiet.lean ====
section
/-! SUPPORT. A command in a quiet environment, without the sequencer's bookkeeping: `start_quiet`
says that it runs its micro-steps one after the other on the registers and the chip. -/

namespace Sys2Proof.Machine

/-- The sequencer's bookkeeping replaced: `busy` and `script`. -/
def State.book (s : State) (b : Option InFlight) (sc : List Slot) : State :=
  { s with busy := b, script := sc }

/-- One micro-step with its request answered at once, on everything but the bookkeeping. -/
def quietOp (s : State) (f : InFlight) (op : MicroOp) : State × InFlight :=
  match opRequest s f op with
  | none => (opEffect s f op, opSequencer s f 0#16 op)
  | some r =>
    (opEffect ((s.logRequest r).perform r).2 f op,
      opSequencer ((s.logRequest r).perform r).2 f ((s.logRequest r).perform r).1 op)

/-- Micro-steps one after the other, and the response. -/
def quietRun (s : State) (f : InFlight) : List MicroOp → State
  | [] => s.respond f.data
  | op :: rest => quietRun (quietOp s f op).1 (quietOp s f op).2 rest

/-- The sequencer of a command that has just been accepted, without its micro-steps. -/
def State.fresh (s : State) : InFlight :=
  { todo := [], t := s.now, held := 0#16, data := 0#12, outstanding := none }

theorem book_readByteAt (s : State) (b : Option InFlight) (sc : List Slot) (a : Nat) :
    (s.book b sc).readByteAt a = ((s.readByteAt a).1, (s.readByteAt a).2.book b sc) := by
  simp only [State.readByteAt, State.book]
  cases Memory.read s.regs a <;> rfl

theorem book_memWrite8 (s : State) (b : Option InFlight) (sc : List Slot) (reg : RegNo) (v : Byte) :
    (s.book b sc).memWrite8 reg v = (s.memWrite8 reg v).book b sc := by
  simp only [State.memWrite8, State.book]
  split_ifs <;> rfl

/-- What a request does at the chip has nothing to do with the bookkeeping. -/
theorem book_perform (s : State) (b : Option InFlight) (sc : List Slot) (r : Request) :
    (s.book b sc).perform r = ((s.perform r).1, (s.perform r).2.book b sc) := by
  cases r with
  | read8 d reg => simp [State.perform, State.memRead8, book_readByteAt]
  | read16 d reg => simp [State.perform, State.memRead16, book_readByteAt]
  | write8 d reg v => simp [State.perform, book_memWrite8]

theorem book_opRequest (s : State) (b : Option InFlight) (sc : List Slot) (f : InFlight)
    (op : MicroOp) : opRequest (s.book b sc) f op = opRequest s f op := by
  cases op <;> rfl

theorem book_opEffect (s : State) (b : Option InFlight) (sc : List Slot) (f : InFlight)
    (op : MicroOp) : opEffect (s.book b sc) f op = (opEffect s f op).book b sc := by
  cases op <;> rfl

theorem book_opSequencer (s : State) (b : Option InFlight) (sc : List Slot) (f : InFlight)
    (d : BitVec 16) (op : MicroOp) : opSequencer (s.book b sc) f d op = opSequencer s f d op := by
  cases op <;> rfl

/-- The sequencer's work does not read its own list of micro-steps. -/
theorem opRequest_todo (s : State) (f : InFlight) (td : List MicroOp) (o : Option Request)
    (op : MicroOp) :
    opRequest s { f with todo := td, outstanding := o } op = opRequest s f op := by
  cases op <;> rfl

theorem opEffect_todo (s : State) (f : InFlight) (td : List MicroOp) (o : Option Request)
    (op : MicroOp) :
    opEffect s { f with todo := td, outstanding := o } op = opEffect s f op := by
  cases op <;> rfl

theorem opSequencer_todo (s : State) (f : InFlight) (td : List MicroOp) (o : Option Request)
    (d : BitVec 16) (op : MicroOp) :
    opSequencer s { f with todo := td, outstanding := o } d op =
      { opSequencer s f d op with todo := td, outstanding := o } := by
  cases op <;> rfl

/-- One quiet micro-step, with its bookkeeping. -/
theorem microStep_book {s : State} {f g : InFlight} {sc : List Slot} {op : MicroOp}
    {rest td : List MicroOp} (hq : sc.headD Slot.quiet = Slot.quiet) :
    microStep (s.book (some g) sc) { f with todo := td, outstanding := none } op rest =
      (quietOp s f op).1.book
        (some { (quietOp s f op).2 with todo := rest, outstanding := none }) sc.tail := by
  have hdrop : (s.book (some g) sc).dropSlot = s.book (some g) sc.tail := rfl
  have hslot : (s.book (some g) sc).nextSlot = Slot.quiet := hq
  have hbusy : (s.book (some g) sc.tail).busy = some g := rfl
  have hlog (r : Request) :
      (s.book (some g) sc.tail).logRequest r = (s.logRequest r).book (some g) sc.tail := rfl
  simp only [microStep, hdrop, hslot, Slot.quiet, State.applyEvents, List.foldl_nil, hbusy,
    book_opRequest, opRequest_todo, quietOp]
  cases opRequest s f op with
  | none =>
    simp only [finishOp, opEffect_todo, opSequencer_todo, book_opEffect, book_opSequencer]
    rfl
  | some r =>
    simp only [hlog, answerOp_ok, book_perform, finishOp, opEffect_todo, opSequencer_todo,
      book_opEffect, book_opSequencer]
    rfl

theorem quietRun_book (s : State) (f : InFlight) (b : Option InFlight) (sc : List Slot)
    (ops : List MicroOp) : quietRun (s.book b sc) f ops = { quietRun s f ops with script := sc } := by
  induction ops generalizing s f with
  | nil => rfl
  | cons op rest ih =>
    have h : quietOp (s.book b sc) f op = ((quietOp s f op).1.book b sc, (quietOp s f op).2) := by
      have hlog (r : Request) : (s.book b sc).logRequest r = (s.logRequest r).book b sc := rfl
      simp only [quietOp, book_opRequest]
      cases opRequest s f op with
      | none => simp only [book_opEffect, book_opSequencer]
      | some r => simp only [hlog, book_perform, book_opEffect, book_opSequencer]
    simp only [quietRun, h, ih]

/-- The slots of a quiet environment, one by one. -/
theorem quiet_tail {sc : List Slot} {n : Nat} (h : ∀ slot ∈ sc.take (n + 1), slot = Slot.quiet) :
    sc.headD Slot.quiet = Slot.quiet ∧ ∀ slot ∈ sc.tail.take n, slot = Slot.quiet := by
  cases sc with
  | nil => exact ⟨rfl, by simp⟩
  | cons a rest =>
    refine ⟨h a (by simp), fun slot hslot => h slot ?_⟩
    simp only [List.take_succ_cons]
    exact List.mem_cons_of_mem _ hslot

theorem runMicro_book (ops : List MicroOp) (s : State) (f : InFlight) (sc : List Slot) (n : Nat)
    (hq : ∀ slot ∈ sc.take ops.length, slot = Slot.quiet) :
    runMicro (ops.length + 1 + n)
        (s.book (some { f with todo := ops, outstanding := none }) sc) =
      { quietRun s f ops with script := sc.drop ops.length } := by
  induction ops generalizing s f sc with
  | nil =>
    rw [show ([] : List MicroOp).length + 1 + n = n + 1 by simp; omega, runMicro_done rfl rfl rfl]
    rfl
  | cons op rest ih =>
    have hq' := quiet_tail (n := rest.length) hq
    rw [show (op :: rest).length + 1 + n = (rest.length + 1 + n) + 1 by simp; omega,
      runMicro_step rfl rfl rfl, microStep_book hq'.1, ih _ _ _ hq'.2]
    simp [quietRun]

/-- A command in a quiet environment. -/
theorem start_quiet {s : State} {ops : List MicroOp} (hq : s.QuietFor ops.length) :
    s.start ops = { quietRun s s.fresh ops with script := s.script.drop ops.length } := by
  have h := runMicro_book ops s s.fresh s.script 0 hq
  exact h

/-! ## Requests, one kind at a time -/

theorem perform_read8 (s : State) (q : Request) (d : BitVec 7) (reg : RegNo) :
    (s.logRequest q).perform (.read8 d reg) =
      ((s.memRead8 reg).1.setWidth 16,
        { s with xpOut := s.xpOut ++ [q.word], draws := (s.memRead8 reg).2.draws }) := by
  have c := memRead8_congr (s := s) (t := s.logRequest q) rfl rfl reg
  have e : (s.logRequest q).perform (.read8 d reg) =
      (((s.logRequest q).memRead8 reg).1.setWidth 16, ((s.logRequest q).memRead8 reg).2) := rfl
  rw [e, memRead8_frame, c.1, c.2]
  rfl

theorem perform_read16 (s : State) (q : Request) (d : BitVec 7) (reg : RegNo) :
    (s.logRequest q).perform (.read16 d reg) =
      ((s.memRead16 reg).1,
        { s with xpOut := s.xpOut ++ [q.word], draws := (s.memRead16 reg).2.draws }) := by
  have c := memRead16_congr (s := s) (t := s.logRequest q) rfl rfl reg
  have e : (s.logRequest q).perform (.read16 d reg) =
      (((s.logRequest q).memRead16 reg).1, ((s.logRequest q).memRead16 reg).2) := rfl
  rw [e, memRead16_frame, c.1, c.2]
  rfl

/-- A write of a register that is no soft reset and acts on no latch. -/
theorem perform_write8_plain (s : State) (q : Request) (d : BitVec 7) {reg : RegNo} (v : Byte)
    (h0 : reg ≠ regSoftReset) (h1 : reg ≠ regGpioSet) (h2 : reg ≠ regGpioClr)
    (h3 : reg ≠ regGpioTog) (hn : needsStop reg = false) :
    (s.logRequest q).perform (.write8 d reg v) =
      (Config.noReadData, { s with
        xpOut := s.xpOut ++ [q.word]
        regs := Memory.write s.regs reg.toNat v }) := by
  have e : (s.logRequest q).perform (.write8 d reg v) =
      (Config.noReadData, (s.logRequest q).memWrite8 reg v) := rfl
  rw [e, memWrite8_plain _ _ h0 h1 h2 h3 hn]
  rfl

/-- The write of SETTYPE S5. -/
theorem perform_write8_clr (s : State) (q : Request) (d : BitVec 7) (v : Byte) :
    (s.logRequest q).perform (.write8 d regGpioClr v) =
      (Config.noReadData, { s with
        xpOut := s.xpOut ++ [q.word]
        regs := Memory.forget (Memory.write s.regs 0x79 v) 0x75
        outLatch := s.outLatch &&& ~~~v }) := by
  have e : (s.logRequest q).perform (.write8 d regGpioClr v) =
      (Config.noReadData, (s.logRequest q).memWrite8 regGpioClr v) := rfl
  rw [e, memWrite8_clr]
  rfl

/-! ## Micro-steps, one kind at a time -/

theorem quietOp_assignRole (s : State) (f : InFlight) (c : ChannelIx) (r : Role) :
    quietOp s f (.assignRole c r) = (s.setRole c r, f) := rfl

theorem quietOp_writeEnable (s : State) (f : InFlight) :
    quietOp s f .writeEnable = ({ s with
      xpOut := s.xpOut ++ [.write8 s.address 0x77#8 (packEn s.role)]
      regs := Memory.write s.regs 0x77 (packEn s.role) }, f) := by
  simp only [quietOp, opRequest]
  rw [perform_write8_plain _ _ _ _ (by decide) (by decide) (by decide) (by decide) (by decide)]
  rfl

theorem quietOp_writeDirection (s : State) (f : InFlight) :
    quietOp s f .writeDirection = ({ s with
      xpOut := s.xpOut ++ [.write8 s.address 0x76#8 (packDir s.role)]
      regs := Memory.write s.regs 0x76 (packDir s.role) }, f) := by
  simp only [quietOp, opRequest]
  rw [perform_write8_plain _ _ _ _ (by decide) (by decide) (by decide) (by decide) (by decide)]
  rfl

theorem quietOp_writeElectrodes (s : State) (f : InFlight) :
    quietOp s f .writeElectrodes = ({ s with
      xpOut := s.xpOut ++ [.write8 s.address 0x5E#8 (ecrValue (sensorCount s.role))]
      regs := Memory.write s.regs 0x5E (ecrValue (sensorCount s.role)) }, f) := by
  simp only [quietOp, opRequest]
  rw [perform_write8_plain _ _ _ _ (by decide) (by decide) (by decide) (by decide) (by decide)]
  rfl

theorem quietOp_clearOutputs (s : State) (f : InFlight) :
    quietOp s f .clearOutputs = (({ s with
      xpOut := s.xpOut ++ [.write8 s.address 0x79#8 0xFF#8]
      regs := Memory.forget (Memory.write s.regs 0x79 0xFF#8) 0x75
      outLatch := 0x00#8 } : State).clearLevels, f) := by
  simp only [quietOp, opRequest]
  rw [perform_write8_clr]
  have h : s.outLatch &&& ~~~0xFF#8 = 0x00#8 := by simp
  rw [h]
  rfl

theorem quietOp_readRegister (s : State) (f : InFlight) (reg : RegNo) :
    quietOp s f (.readRegister reg) = ({ s with
      xpOut := s.xpOut ++ [.read8 s.address reg]
      draws := (s.memRead8 reg).2.draws }, { f with held := (s.memRead8 reg).1.setWidth 16 }) := by
  simp only [quietOp, opRequest]
  rw [perform_read8]
  rfl

theorem quietOp_writeBit (s : State) (f : InFlight) {reg : RegNo} (k : GpioBit) (b : Bool)
    (h0 : reg ≠ regSoftReset) (h1 : reg ≠ regGpioSet) (h2 : reg ≠ regGpioClr)
    (h3 : reg ≠ regGpioTog) (hn : needsStop reg = false) :
    quietOp s f (.writeBit reg k b) = ({ s with
      xpOut := s.xpOut ++ [.write8 s.address reg (withBit (f.held.setWidth 8) k b)]
      regs := Memory.write s.regs reg.toNat (withBit (f.held.setWidth 8) k b) }, f) := by
  simp only [quietOp, opRequest]
  rw [perform_write8_plain _ _ _ _ h0 h1 h2 h3 hn]
  rfl

theorem quietOp_readStatus (s : State) (f : InFlight) :
    quietOp s f .readStatus = ({ s with
      xpOut := s.xpOut ++ [.read16 s.address 0x00#8]
      draws := (s.memRead16 0x00#8).2.draws }, { f with held := (s.memRead16 0x00#8).1 }) := by
  simp only [quietOp, opRequest]
  rw [perform_read16]
  rfl

theorem quietOp_takeStatus (s : State) (f : InFlight) :
    quietOp s f .takeStatus =
      ({ s with interrupted := false }, { f with data := f.held.setWidth 12 }) := rfl

theorem quietOp_takeLatch (s : State) (f : InFlight) :
    quietOp s f .takeLatch =
      ({ s with interrupted := false }, { f with data := bit12 s.interrupted }) := rfl

theorem quietOp_judgeTouch (s : State) (f : InFlight) (c : ChannelIx) :
    quietOp s f (.judgeTouch c) =
      (s.setChan c (judgeChannel (s.chan c) (f.data.getLsbD c.val) f.t),
        { f with data := bit12 (f.data.getLsbD c.val) }) := rfl

theorem quietOp_cacheLevel (s : State) (f : InFlight) (c : ChannelIx) :
    quietOp s f (.cacheLevel c) =
      (s.setChan c { s.chan c with gpioOutputHigh := f.held.getLsbD (gpioBit c).val },
        { f with data := bit12 (f.held.getLsbD (gpioBit c).val) }) := rfl

end Sys2Proof.Machine
end

