-- ==== Sys2Proof/Laws/RoleTable.lean ====
section
/-! SUPPORT. The values of the role packer: the bits of a packed byte, and the sensor count of a
contiguous role table. -/

namespace Sys2Proof.Machine

/-- Bit k of a packed byte. -/
theorem packBits_get (p : GpioBit → Bool) (k : GpioBit) :
    (packBits p).getLsbD k.val = p k := by
  have bits : ∀ b0 b1 b2 b3 b4 b5 b6 b7 : Bool,
      let w : Byte :=
        BitVec.ofBool b7 ++ BitVec.ofBool b6 ++ BitVec.ofBool b5 ++ BitVec.ofBool b4 ++
          BitVec.ofBool b3 ++ BitVec.ofBool b2 ++ BitVec.ofBool b1 ++ BitVec.ofBool b0
      w.getLsbD 0 = b0 ∧ w.getLsbD 1 = b1 ∧ w.getLsbD 2 = b2 ∧ w.getLsbD 3 = b3 ∧
        w.getLsbD 4 = b4 ∧ w.getLsbD 5 = b5 ∧ w.getLsbD 6 = b6 ∧ w.getLsbD 7 = b7 := by decide
  obtain ⟨h0, h1, h2, h3, h4, h5, h6, h7⟩ :=
    bits (p 0) (p 1) (p 2) (p 3) (p 4) (p 5) (p 6) (p 7)
  fin_cases k
  exacts [h0, h1, h2, h3, h4, h5, h6, h7]

/-- The count, over a Boolean table. -/
theorem sensorCount_bif (role : ChannelIx → Role) :
    sensorCount role =
      allChannels.foldl (fun n c => bif decide (role c = .sensor) then c.val + 1 else n) 0 := by
  have h : (fun (n : Nat) (c : ChannelIx) => if role c = .sensor then c.val + 1 else n) =
      fun n c => bif decide (role c = .sensor) then c.val + 1 else n := by
    funext n c
    by_cases hc : role c = .sensor <;> simp [hc]
  rw [sensorCount, h]

/-- A contiguous table has a first channel that is no sensor (12 where there is none). -/
theorem contiguous_cut {role : ChannelIx → Role} (hc : Contiguous role) :
    ∃ n ≤ 12, ∀ i : ChannelIx, role i = .sensor ↔ i.val < n := by
  by_cases all : ∀ i, role i = .sensor
  · exact ⟨12, le_rfl, fun i => ⟨fun _ => i.isLt, fun _ => all i⟩⟩
  · push Not at all
    obtain ⟨w, hw⟩ := all
    obtain ⟨m, hm, least⟩ :=
      (Finset.univ.filter fun i : ChannelIx => role i ≠ .sensor).exists_minimal ⟨w, by simp [hw]⟩
    refine ⟨m.val, by omega, fun i => ⟨fun hi => ?_, fun hi => ?_⟩⟩
    · by_contra h
      rcases eq_or_lt_of_le (not_lt.mp h) with e | e
      · exact (Finset.mem_filter.mp hm).2 ((Fin.ext e : m = i) ▸ hi)
      · exact (Finset.mem_filter.mp hm).2 (hc m i e hi)
    · by_contra h
      exact absurd hi (not_lt.mpr (least (by simp [h]) (le_of_lt hi)))

/-- The sensors of a contiguous table are the channels below the count. -/
theorem contiguous_count {role : ChannelIx → Role} (hc : Contiguous role) :
    sensorCount role ≤ 12 ∧ ∀ i, role i = .sensor ↔ i.val < sensorCount role := by
  obtain ⟨n, hn, h⟩ := contiguous_cut hc
  have e : sensorCount role = n := by
    have table : ∀ c : ChannelIx, decide (role c = .sensor) = decide (c.val < n) := by simp [h]
    simp only [sensorCount_bif, table]
    clear table h hc
    revert n
    decide
  rw [e]
  exact ⟨hn, h⟩

end Sys2Proof.Machine
end

