-- ==== Sys2Proof/Machine/Assembly.lean ====
section
/-! DEFINITION. The assembler text of 30_encoding.md R88: the mnemonic in capitals, then the operands
`ch`, then `role`, `en` or `v`, separated by commas; comments; and the two lines that describe the
environment. A printer of commands and a reader of lines. -/

namespace Sys2Proof.Machine

/-! ## Printing -/

/-- The word or number of a `role` operand (R88). -/
def roleText (r : BitVec 2) : String :=
  match roleOf r with
  | some .sensor => "SENSOR"
  | some .gpioIn => "GPIO_IN"
  | some .gpioOut => "GPIO_OUT"
  | none => "3"

/-- The operands of a command, in the order of R88. -/
def operandTexts : Instr → List String
  | .tchall => []
  | .tchch ch => [Nat.repr ch.toNat]
  | .useirq en => [Nat.repr en.toNat]
  | .settype ch role => [Nat.repr ch.toNat, roleText role]
  | .setdbd v => [Nat.repr v.toNat]
  | .setdbc ch v => [Nat.repr ch.toNat, Nat.repr v.toNat]
  | .clrdbc ch => [Nat.repr ch.toNat]
  | .pullup ch => [Nat.repr ch.toNat]
  | .pulldn ch => [Nat.repr ch.toNat]
  | .gpioen ch en => [Nat.repr ch.toNat, Nat.repr en.toNat]
  | .gpiost ch => [Nat.repr ch.toNat]

/-- One line of assembler text. -/
def asmText (i : Instr) : String :=
  match operandTexts i with
  | [] => i.mnemonic
  | [a] => i.mnemonic ++ " " ++ a
  | a :: b :: _ => i.mnemonic ++ " " ++ a ++ ", " ++ b

/-! ## Reading -/

/-- A line of R88. -/
inductive AsmLine where
  /-- Nothing, or a comment only. -/
  | blank
  /-- A command, and the response word it is expected to give, where the line says one. -/
  | command (i : Instr) (expected : Option ResponseWord)
  /-- `@ now = <number>`. -/
  | time (t : Time)
  /-- `! FIREIRQ`. -/
  | fireIrq
deriving DecidableEq, Repr

/-- A word that has been read so far, if any. -/
def asmWord (acc : List Char) : List String := if acc = [] then [] else [String.ofList acc]

/-- The words of a line: blanks separate them, a comma is one of its own, `;` starts a comment, and all that follows it is
dropped: also a `-> <hex>` that stands there, as in the programs P1 to P4 of 95_test_vectors.md. Whether
such a one is an expected response word R88 does not say: the model's choice, log 29. -/
def asmWords : List Char → List Char → List String
  | [], acc => asmWord acc
  | c :: rest, acc =>
    if c = ';' then asmWord acc
    else if c = ' ' then asmWord acc ++ asmWords rest []
    else if c = ',' then asmWord acc ++ "," :: asmWords rest []
    else asmWords rest (acc ++ [c])

/-- The value of a digit in a base. -/
def digitValue (base : Nat) (c : Char) : Option Nat :=
  let n := c.toNat
  let d :=
    if 48 ≤ n ∧ n ≤ 57 then n - 48
    else if 65 ≤ n ∧ n ≤ 70 then n - 55
    else if 97 ≤ n ∧ n ≤ 102 then n - 87
    else base
  if d < base then some d else none

/-- Digits in a base, after the digits whose value is `acc`. -/
def digitsValue (base : Nat) : List Char → Nat → Option Nat
  | [], acc => some acc
  | c :: rest, acc =>
    match digitValue base c with
    | some d => digitsValue base rest (acc * base + d)
    | none => none

/-- A decimal number. -/
def decimal (s : String) : Option Nat :=
  match s.toList with
  | [] => none
  | ds => digitsValue 10 ds 0

/-- A number, decimal or `0x` hexadecimal: R88 says so of `v`; of the `<number>` of `@ now` it is the
model's choice, log 29. -/
def number (s : String) : Option Nat :=
  match s.toList with
  | '0' :: 'x' :: d :: ds => digitsValue 16 (d :: ds) 0
  | _ => decimal s

/-- The `<hex>` of an expected response: hexadecimal digits. Whether they carry the prefix `0x` is not
said (R88); the reader takes them with it and without it: the model's choice, log 29. -/
def hexNumber (s : String) : Option Nat :=
  match s.toList with
  | [] => none
  | '0' :: 'x' :: d :: ds => digitsValue 16 (d :: ds) 0
  | ds => digitsValue 16 ds 0

/-- A number in the range of an operand. -/
def inWidth (w : Nat) (n : Option Nat) : Option (BitVec w) :=
  match n with
  | some n => if n < 2 ^ w then some (BitVec.ofNat w n) else none
  | none => none

/-- `role`: one of the three words, or a number 0..3. -/
def roleWord (s : String) : Option (BitVec 2) :=
  if s = "SENSOR" then some Role.sensor.code
  else if s = "GPIO_IN" then some Role.gpioIn.code
  else if s = "GPIO_OUT" then some Role.gpioOut.code
  else inWidth 2 (decimal s)

/-- `en`: 0 or 1. -/
def enWord (s : String) : Option Bool :=
  if s = "0" then some false else if s = "1" then some true else none

/-- A command with one operand. -/
def asmUnary (m a : String) : Option Instr :=
  let ch := inWidth 4 (decimal a)
  if m = "TCHCH" then ch.map .tchch
  else if m = "USEIRQ" then (enWord a).map .useirq
  else if m = "SETDBD" then (inWidth 16 (number a)).map .setdbd
  else if m = "CLRDBC" then ch.map .clrdbc
  else if m = "PULLUP" then ch.map .pullup
  else if m = "PULLDN" then ch.map .pulldn
  else if m = "GPIOST" then ch.map .gpiost
  else none

/-- A command with two operands. -/
def asmBinary (m a b : String) : Option Instr :=
  match inWidth 4 (decimal a) with
  | none => none
  | some ch =>
    if m = "SETTYPE" then (roleWord b).map (.settype ch)
    else if m = "SETDBC" then (inWidth 16 (number b)).map (.setdbc ch)
    else if m = "GPIOEN" then (enWord b).map (.gpioen ch)
    else none

/-- The words of a command. -/
def asmCommand : List String → Option Instr
  | [m] => if m = "TCHALL" then some .tchall else none
  | [m, a] => asmUnary m a
  | [m, a, comma, b] => if comma = "," then asmBinary m a b else none
  | _ => none

/-- The words before `->`, and the expected response word after it, if it is there. -/
def splitExpected : List String → List String × List String
  | [] => ([], [])
  | s :: rest =>
    if s = "->" then ([], s :: rest)
    else (s :: (splitExpected rest).1, (splitExpected rest).2)

/-- The words of a line; none where it is no line of R88. The `<hex>` after `->` is read as
hexadecimal with or without `0x`, and the `<number>` of `@ now = <number>` as decimal or `0x`
hexadecimal, as R88 says of `v`; R88 leaves both open: the model's choices, log 29. -/
def asmLine (ws : List String) : Option AsmLine :=
  match ws with
  | [] => some .blank
  | ["@", "now", "=", n] => (inWidth 32 (number n)).map .time
  | ["!", "FIREIRQ"] => some .fireIrq
  | _ =>
    match asmCommand (splitExpected ws).1, (splitExpected ws).2 with
    | some i, [] => some (.command i none)
    | some i, [_, r] => (inWidth 16 (hexNumber r)).map fun r => .command i (some r)
    | _, _ => none

/-- Reads one line. -/
def readLine (s : String) : Option AsmLine := asmLine (asmWords s.toList [])

/-- What a line puts on the ports of the block. -/
def AsmLine.inputs : AsmLine → List Input
  | .blank => []
  | .command i _ => [.command (encode i)]
  | .time t => [.event (.setNow t)]
  | .fireIrq => [.event .fireIrq]

/-- The inputs of a program, line by line; none where a line is no line of R88. -/
def readProgram : List String → Option (List Input)
  | [] => some []
  | s :: rest =>
    match readLine s, readProgram rest with
    | some l, some is => some (l.inputs ++ is)
    | _, _ => none

end Sys2Proof.Machine
end

