-- ==== Sys2Proof/Tests/Slice0.lean ====
section
/-! SUPPORT. Tests. Expected results are from 95_test_vectors.md (the vector is named in the comment)
or from the rule named. After them one `witness_…` theorem for each statement with hypotheses: a
concrete state and operands that meet all of them. -/

namespace Sys2Proof.Tests

open Sys2Proof Sys2Proof.Machine

/-! ## Decoding: the words of 95_test_vectors.md section 2 -/

theorem test_decode_tchall : decode 0x100000#24 = .ok .tchall := by decide
theorem test_decode_tchch : decode 0x2B0000#24 = .ok (.tchch 11#4) := by decide
theorem test_decode_useirq : decode 0x300001#24 = .ok (.useirq true) := by decide
theorem test_decode_settype : decode 0x4B0002#24 = .ok (.settype 11#4 2#2) := by decide
theorem test_decode_setdbd : decode 0x50FFFF#24 = .ok (.setdbd 0xFFFF#16) := by decide
theorem test_decode_setdbc : decode 0x67000A#24 = .ok (.setdbc 7#4 10#16) := by decide
theorem test_decode_clrdbc : decode 0x740000#24 = .ok (.clrdbc 4#4) := by decide
theorem test_decode_pullup : decode 0x860000#24 = .ok (.pullup 6#4) := by decide
theorem test_decode_pulldn : decode 0x940000#24 = .ok (.pulldn 4#4) := by decide
theorem test_decode_gpioen : decode 0xA90001#24 = .ok (.gpioen 9#4 true) := by decide
theorem test_decode_gpiost : decode 0xB90000#24 = .ok (.gpiost 9#4) := by decide

/-- Rows VE1 to VE14: the illegal words. -/
theorem test_illegal_words :
    ([0x000000#24, 0xC00000#24, 0xD12345#24, 0xFFFFFF#24, 0x100001#24, 0x110000#24, 0x250001#24,
      0x300002#24, 0x310001#24, 0x4B0004#24, 0x510032#24, 0x740001#24, 0xAB0002#24,
      0xB98000#24].all fun w => (decode w).toOption.isNone) = true := by rfl

/-- Rows VE16 and VE21: operand values that are refused still decode. -/
theorem test_refused_values_decode :
    decode 0x6FFFFF#24 = .ok (.setdbc 15#4 0xFFFF#16) ∧
      decode 0x4D0003#24 = .ok (.settype 13#4 3#2) := by decide

/-- The opcode table's words, through the host's door. -/
theorem test_table_word : decodeTableWord 24 0xAB0000 = some (.gpioen 11#4 false) := by decide

/-- The texts of 95_test_vectors.md section 2. -/
theorem test_assembly :
    asmText (.settype 11#4 2#2) = "SETTYPE 11, GPIO_OUT" ∧ asmText (.setdbc 4#4 50#16) = "SETDBC 4, 50" ∧
      asmText .tchall = "TCHALL" ∧ asmText (.useirq true) = "USEIRQ 1" := by decide

/-- The examples of 30_encoding.md R88 and the kinds of line it names. -/
theorem test_read_lines :
    readLine "TCHCH 5" = some (.command (.tchch 5#4) none) ∧
      readLine "SETTYPE 11, GPIO_OUT -> 0x0000 ; packs" =
        some (.command (.settype 11#4 2#2) (some 0x0000#16)) ∧
      readLine "TCHALL -> 0x1000" = readLine "TCHALL -> 1000" ∧
      readLine "TCHALL -> 1000" = some (.command .tchall (some 0x1000#16)) ∧
      readLine "SETDBC 4, 0x32" = some (.command (.setdbc 4#4 50#16) none) ∧
      readLine "@ now = 100" = some (.time 100#32) ∧ readLine "! FIREIRQ" = some .fireIrq ∧
      readLine "; nothing" = some .blank ∧ readLine "TCHCH 16" = none := by decide

/-- A program of two lines. -/
theorem test_read_program :
    readProgram ["! FIREIRQ", "USEIRQ 1"] =
      some [.event .fireIrq, .command 0x300001#24] := by decide

/-! ## WellFormed: each check refuses an ill-formed term -/

theorem test_ill_formed_channel : ¬ WellFormed (.tchch 12#4) := by decide
theorem test_ill_formed_role : ¬ WellFormed (.settype 5#4 3#2) := by decide
theorem test_well_formed : WellFormed (.settype 11#4 2#2) ∧ WellFormed .tchall := by decide

/-! ## One command on a small state -/

/-- The state of the vectors: reset, with DBD_RESET = 0. -/
def base : State := { State.reset with debounceDefault := 0#16 }

/-- The state after a word has been presented to an idle block and one step taken. -/
def after (s : State) (w : CommandWord) : State :=
  match step (s.present w) with
  | .next t => t
  | .fault _ => s
  | .refused _ => s

/-- `base` with chosen registers of the chip. -/
def withChip (regs : List Host.Cell) : State := { base with regs := regs }

/-- `base` with one channel an input, and chosen registers of the chip. -/
def withInputPin (c : ChannelIx) (regs : List Host.Cell) : State := (withChip regs).setRole c .gpioIn

/-- VA1: the latch is cleared, the upper four bits of the status are dropped. -/
theorem test_tchall_polling :
    let t := after { withChip [(0, 0x05#8), (1, 0xF8#8)] with interrupted := true } 0x100000#24
    t.rspOut = [0x0805#16] ∧ t.interrupted = false ∧ t.xpOut = [.read16 0x5A#7 0x00#8] := by decide

/-- 10_state.md R38: the word on `xp_req` of a 16-bit read, kind 1, and of a write, kind 2. -/
theorem test_request_words :
    (after (withChip [(0, 0x05#8), (1, 0xF8#8)]) 0x100000#24).xpOut = [⟨1#2, 0x5A#7, 0x00#8, none⟩] ∧
      (Request.write8 0x5A#7 0x79#8 0xFF#8).word = ⟨2#2, 0x5A#7, 0x79#8, some 0xFF#8⟩ := by decide

/-- 70_reset_and_hazards.md R225: a host's write of a threshold while the ECR holds 0, and while it
does not; a write of GPIO_EN in either case. -/
theorem test_stop_mode :
    ((withChip [(0x41, 1#8), (0x5E, 0x00#8)]).memWrite8 0x41#8 12#8).regs =
        [(0x41, 12#8), (0x5E, 0x00#8)] ∧
      ((withChip [(0x41, 1#8), (0x5E, 0x8C#8)]).memWrite8 0x41#8 12#8).regs = [(0x5E, 0x8C#8)] ∧
      ((withChip [(0x5E, 0x8C#8)]).memWrite8 0x77#8 12#8).regs =
        [(0x5E, 0x8C#8), (0x77, 12#8)] := by decide

/-- VA8: a FIREIRQ between A1 and A2 is lost in polling mode. -/
theorem test_tchall_loses_event :
    let t := after { withChip [(0, 0x02#8), (1, 0x00#8)] with
      script := [Slot.quiet, ⟨[.fireIrq], none⟩] } 0x100000#24
    t.rspOut = [0x0002#16] ∧ t.interrupted = false := by decide

/-- VW5: the window wraps around. -/
theorem test_tchch_wraps :
    let ch : Channel := { Channel.reset with lastTouchTimestamp := 0xFFFFFFF0#32 }
    let s := ({ withChip [(0, 0x04#8), (1, 0x00#8)] with
      debounceDefault := 50#16, now := 0x22#32 } : State).setChan 2 ch
    let t := after s 0x220000#24
    t.rspOut = [0x0001#16] ∧ (t.chan 2).touched = .touched ∧
      (t.chan 2).lastTouchTimestamp = 0x22#32 := by decide

/-- VT9: a release inside the window is reported at once and does not write the timestamp. -/
theorem test_tchch_release :
    let ch : Channel := { Channel.reset with touched := .touched, lastTouchTimestamp := 202#32 }
    let s := ({ withChip [(0, 0x00#8), (1, 0x00#8)] with
      debounceDefault := 50#16, now := 203#32 } : State).setChan 5 ch
    let t := after s 0x250000#24
    t.rspOut = [0x0000#16] ∧ (t.chan 5).touched = .idle ∧
      (t.chan 5).lastTouchTimestamp = 202#32 := by decide

/-- VA9: USEIRQ keeps the latch. -/
theorem test_useirq_keeps_latch :
    let t := after { base with interrupted := true } 0x300001#24
    t.useIRQ = true ∧ t.interrupted = true ∧ t.rspOut = [0x0000#16] := by decide

/-- VK1, with any ECR_HI. -/
theorem test_settype_writes :
    (after base 0x4B0002#24).xpOut =
      [.write8 0x5A#7 0x77#8 0x80#8, .write8 0x5A#7 0x76#8 0x80#8,
        .write8 0x5A#7 0x5E#8 (Config.ecrHi ++ 0xB#4), .write8 0x5A#7 0x79#8 0xFF#8] := by rfl

/-- VF2: the third write fails. -/
theorem test_settype_cut :
    let s : State := { base with
      script := [Slot.quiet, Slot.quiet, Slot.quiet, ⟨[], some (.error false)⟩] }
    (after s 0x4B0001#24).rspOut = [0x7000#16] ∧ (after s 0x4B0001#24).role 11 = .gpioIn ∧
      (after s 0x4B0001#24).regs = [(0x76, 0x00#8), (0x77, 0x80#8)] := by
  refine ⟨by rfl, by rfl, by rfl⟩

/-- VD1. -/
theorem test_setdbd :
    (after base 0x5003E8#24).debounceDefault = 1000#16 ∧
      (after base 0x5003E8#24).rspOut = [0x0000#16] := by decide

/-- VD2. -/
theorem test_setdbc :
    ((after base 0x67000A#24).chan 7).dbv = true ∧
      ((after base 0x67000A#24).chan 7).debounce = 10#16 := by decide

/-- VD11. -/
theorem test_setdbc_bad_channel : (after base 0x6C0005#24).rspOut = [0x2000#16] := by decide

/-- VD5: the value keeps its bits (44_debounce_config.md R172). -/
theorem test_clrdbc :
    let s := base.setChan 7 { Channel.reset with dbv := true, debounce := 10#16 }
    ((after s 0x770000#24).chan 7).dbv = false ∧
      ((after s 0x770000#24).chan 7).debounce = 10#16 := by decide

/-- VG9. -/
theorem test_pullup :
    (after (withInputPin 6 [(0x73, 0x01#8), (0x74, 0x01#8)]) 0x860000#24).xpOut =
      [.read8 0x5A#7 0x73#8, .write8 0x5A#7 0x73#8 0x05#8, .read8 0x5A#7 0x74#8,
        .write8 0x5A#7 0x74#8 0x05#8] := by decide

/-- VG15: the third request fails. After it the fourth one (VG17; 41_gpio_bit_ops.md R128). -/
theorem test_pullup_cut :
    ∀ good, good = 2 ∨ good = 3 →
      let s : State := { withInputPin 9 [(0x73, 0x10#8), (0x74, 0x00#8)] with
        script := List.replicate good Slot.quiet ++ [⟨[], some (.error true)⟩] }
      (after s 0x890000#24).rspOut = [0x7000#16] ∧
        (after s 0x890000#24).regs = [(0x73, 0x30#8), (0x74, 0x00#8)] := by
  rintro good (rfl | rfl) <;> decide

/-- VG11. -/
theorem test_pulldn :
    (after (withInputPin 11 [(0x73, 0xA5#8), (0x74, 0xDA#8)]) 0x9B0000#24).regs =
      [(0x73, 0xA5#8), (0x74, 0x5A#8)] := by decide

/-- VG23, for an input channel (41_gpio_bit_ops.md R124). -/
theorem test_gpioen :
    (after (withInputPin 9 [(0x77, 0xFC#8)]) 0xA90000#24).regs = [(0x77, 0xDC#8)] := by decide

/-- VG5. -/
theorem test_gpioen_sensor :
    (after base 0xA50000#24).xpOut = [] ∧ (after base 0xA50000#24).rspOut = [0x0000#16] := by decide

/-- VG18. -/
theorem test_gpiost_input :
    let t := after (withInputPin 9 [(0x75, 0x20#8)]) 0xB90000#24
    t.rspOut = [0x0001#16] ∧ (t.chan 9).gpioOutputHigh = true := by decide

/-- VG22. -/
theorem test_gpiost_output :
    (after (base.setRole 9 .gpioOut) 0xB90000#24).xpOut = [] ∧
      (after (base.setRole 9 .gpioOut) 0xB90000#24).rspOut = [0x0000#16] := by decide

/-- The host's door: the table's word is the first thing that runs after reset. -/
theorem test_withFetchWord :
    step (State.reset.withFetchWord 24 0x300001) = exec (.useirq true) State.reset := by rfl

/-! ## Witnesses: states and operands that meet the hypotheses of the statements -/

/-- `base` with a word on the command port. -/
def offered (w : CommandWord) : State := { base with inputs := [.command w] }

/-- `base` in the middle of TCHALL, its status read not answered. -/
def waiting : State :=
  { base with
    busy := some
      { todo := [.readStatus, .takeStatus], t := 0#32, held := 0#16, data := 0#12,
        outstanding := some (.read16 0x5A#7 0x00#8) } }

/-- `base` in the middle of SETTYPE 11, GPIO_OUT, its second write not answered. -/
def waitingWrite : State :=
  { base.setRole 11 .gpioOut with
    busy := some
      { todo := [.writeDirection, .writeElectrodes, .clearOutputs], t := 0#32, held := 0#16,
        data := 0#12, outstanding := some (.write8 0x5A#7 0x76#8 0x80#8) } }

/-- A touched status in the middle of TCHCH 5, accepted at 7 ms, its status read not answered; what
comes next. -/
def waitingQuery (inputs : List Input) : State :=
  { withChip [(0, 0x20#8), (1, 0x00#8)] with
    inputs := inputs
    busy := some
      { todo := [.readStatus, .takeStatus, .judgeTouch 5], t := 7#32, held := 0#16, data := 0#12,
        outstanding := some (.read16 0x5A#7 0x00#8) } }

theorem waitingQuery_waits (inputs : List Input) : (waitingQuery inputs).WaitsForTransport := by
  intro f hf
  cases hf
  refine ⟨⟨_, _, _, rfl, rfl, rfl⟩, by simp, fun c hc => ?_, by simp⟩
  obtain rfl : c = 5 := by simpa using hc
  exact ⟨rfl, .inr (show (waitingQuery []).elapsed 5 7#32 = true by decide)⟩

/-- A record that is TOUCHED. -/
def touchedChannel : Channel := { Channel.reset with touched := .touched, lastTouchTimestamp := 5#32 }

theorem base_quiet (n : Nat) : base.QuietFor n := by simp [State.QuietFor, base, State.reset]

theorem witness_DecodedWordsReencode : decode 0x4B0002#24 = .ok (.settype 11#4 2#2) := by decide

theorem witness_StepRunsDecodedInstruction :
    (offered 0x300001#24).busy = none ∧
      (offered 0x300001#24).inputs = .command 0x300001#24 :: [] ∧
      decode 0x300001#24 = .ok (.useirq true) := by decide

theorem witness_IllegalWordIsAnswered :
    (offered 0x250001#24).busy = none ∧
      (offered 0x250001#24).inputs = .command 0x250001#24 :: [] ∧
      ∀ row ∈ opcodeTable, ¬ row.selects 0x250001#24 := by
  refine ⟨rfl, rfl, ?_⟩
  simp [opcodeTable]

theorem witness_OneResponsePerCommand : ∃ t, exec (.useirq true) base = .next t := ⟨_, rfl⟩

/-- Both ends of the range, for a command with a channel operand. -/
theorem witness_BadChannelIsRejected :
    (Instr.tchch 12#4).channel? = some 12#4 ∧ 11 < (12#4).toNat ∧
      (Instr.gpioen 15#4 true).channel? = some 15#4 ∧ 11 < (15#4).toNat := by decide

theorem witness_WrongRoleIsRejected :
    base.role 11 ≠ .gpioIn ∧ base.role 11 = .sensor ∧
      (base.setRole 11 .gpioOut).role 11 ≠ .gpioIn ∧
      (base.setRole 11 .gpioOut).role 11 = .gpioOut := by decide

theorem witness_BusyBlockAcceptsNoCommand :
    waiting.busy ≠ none ∧ ∃ t, step { waiting with inputs := [.command 0x100000#24] } = .next t :=
  ⟨by decide, _, rfl⟩

theorem witness_SilentTransportHangs :
    ∃ f, waiting.busy = some f ∧ f.outstanding = some (.read16 0x5A#7 0x00#8) ∧
      (∀ a, Input.answer a ∉ waiting.inputs) ∧ (∀ b, Input.event (.rst b) ∉ waiting.inputs) ∧
      step waiting = .next waiting :=
  ⟨_, rfl, rfl, by simp [waiting, base, State.reset], by simp [waiting, base, State.reset], rfl⟩

/-- TCHALL waits at the first slot, whose answer is late. -/
theorem witness_LateAnswerIsAsGoodAsPrompt :
    ∃ u, exec .tchall { base with script := [] ++ ⟨[], none⟩ :: [], inputs := [] } = .next u ∧
      (∀ slot ∈ ([] : List Slot), slot.answer ≠ none) ∧ u.busy ≠ none ∧ u.script = [] :=
  ⟨_, rfl, by simp, by decide, rfl⟩

theorem witness_RequestsPerCommand :
    ∃ t, exec (.settype 11#4 2#2) base = .next t ∧ base.QuietFor 5 ∧
      requestCount base (.settype 11#4 2#2) = 4 :=
  ⟨_, rfl, base_quiet 5, by rfl⟩

/-- `rst` at an idle block, at one whose write is not answered, completing or not, and at one whose
read is not answered, with `landed`. -/
theorem witness_RstResetsTheBlockOnly :
    (∀ landed : Bool, ∃ rest,
      ({ waitingWrite with inputs := [.event (.rst landed)] } : State).inputs =
        .event (.rst landed) :: rest) ∧
      (∀ f, waitingWrite.busy = some f → f.outstanding ≠ none) ∧
      waitingWrite.outstanding = some (.write8 0x5A#7 0x76#8 0x80#8) ∧
      (∀ f, waiting.busy = some f → f.outstanding ≠ none) ∧
      (∀ d reg v, waiting.outstanding ≠ some (.write8 d reg v)) ∧ base.busy = none := by
  refine ⟨fun _ => ⟨_, rfl⟩, fun f hf => ?_, rfl, fun f hf => ?_, fun d reg v h => ?_, rfl⟩
  · cases hf; simp
  · cases hf; simp
  · cases h

/-- The invariant holds in a state with a TCHCH in progress, and that state has a step. -/
theorem witness_StepKeepsInvariant :
    (waitingQuery [.answer .ok]).Inv ∧ ∃ t, step (waitingQuery [.answer .ok]) = .next t :=
  ⟨⟨by decide, by decide, rfl, by decide, waitingQuery_waits _⟩, _, rfl⟩

theorem witness_OnlyFireirqSetsTheLatch :
    ∃ t, step { base with inputs := [.event .fireIrq] } = .next t ∧ base.interrupted = false ∧
      t.interrupted = true := ⟨_, rfl, rfl, rfl⟩

theorem witness_FireirqSetsTheLatch :
    ({ waiting with inputs := [.event .fireIrq] } : State).inputs = .event .fireIrq :: [] ∧
      ∀ f, waiting.busy = some f → f.outstanding ≠ none := by
  refine ⟨rfl, fun f hf => ?_⟩
  cases hf
  simp

/-- A query that accepts a touch at once, and one whose late answer does: the latch and the timestamp
move. -/
theorem witness_OnlyQueriesMoveTheLatch :
    (let s : State := { withChip [(0, 0x20#8), (1, 0x00#8)] with
        now := 7#32, inputs := [.command 0x250000#24] };
      s.WaitsForTransport ∧ s.NoRstInside ∧ ¬ s.RstComes ∧
        ∃ t, step s = .next t ∧ (t.chan 5).touched ≠ (s.chan 5).touched ∧
          (t.chan 5).lastTouchTimestamp ≠ (s.chan 5).lastTouchTimestamp) ∧
    (let s := waitingQuery [.command 0x100000#24, .answer .ok];
      s.WaitsForTransport ∧ s.NoRstInside ∧ ¬ s.RstComes ∧
        ∃ t, step s = .next t ∧ (t.chan 5).touched ≠ (s.chan 5).touched ∧
          (t.chan 5).lastTouchTimestamp ≠ (s.chan 5).lastTouchTimestamp) := by
  refine ⟨⟨fun f hf => (by cases hf), by simp [State.NoRstInside, withChip, base, State.reset],
    by simp [State.RstComes, withChip, base, State.reset], _, rfl, by decide, by decide⟩,
    waitingQuery_waits _, by simp [State.NoRstInside, waitingQuery, withChip, base, State.reset],
    by simp [State.RstComes, waitingQuery, takeNonCommand], _, rfl, by decide, by decide⟩

theorem witness_WordReadIsLittleEndian :
    (0x00#8 : RegNo) ≠ 0xFF#8 ∧
      Memory.read (withChip [(0, 0x34#8), (1, 0xF2#8)]).regs (0x00#8).toNat = some 0x34#8 ∧
      Memory.read (withChip [(0, 0x34#8), (1, 0xF2#8)]).regs ((0x00#8).toNat + 1) =
        some 0xF2#8 := by decide

/-- The clauses: the ends of the two ranges of registers that need the electrodes stopped, with the
ECR at 0 and not; their neighbours and the ECR; GPIO_CLR and a register other than the data
register. -/
theorem witness_WriteThenRead :
    ([0x2B#8, 0x72#8, 0x7B#8, 0x7F#8].all needsStop ∧
      [0x2A#8, 0x5E#8, 0x73#8, 0x7A#8, 0x80#8].all fun reg => !needsStop reg) ∧
      ¬ ((0x80#8 : RegNo) = 0x80#8 ∧ (0x62#8 : Byte) = 0x63#8) ∧
      ¬ ((0x2B#8 : RegNo) = 0x80#8 ∧ (0x63#8 : Byte) = 0x63#8) ∧
      Memory.read (withChip [(0x5E, 0x00#8)]).regs 0x5E = some 0x00#8 ∧
      Memory.read (withChip [(0x5E, 0x8C#8)]).regs 0x5E ≠ some 0x00#8 ∧
      0x74 ≠ (0x79#8 : RegNo).toNat ∧
      ¬ (0x74 = 0x75 ∧ ((0x79#8 : RegNo) = 0x78#8 ∨ (0x79#8 : RegNo) = 0x79#8 ∨
        (0x79#8 : RegNo) = 0x7A#8)) := by decide

theorem witness_WriteOneToActLatches :
    (0x77#8 : RegNo) ≠ 0x78#8 ∧ (0x77#8 : RegNo) ≠ 0x79#8 ∧ (0x77#8 : RegNo) ≠ 0x7A#8 ∧
      (0x77#8 : RegNo) ≠ 0x80#8 := by decide

/-- The chip's reset and the host's soft reset, at a block that waits. -/
theorem witness_ChipResetKeepsTheBlock :
    (∀ e : Event, e = .chipReset ∨ e = .busWrite 0x80#8 0x63#8 →
      ({ waiting with inputs := [.event e] } : State).inputs = .event e :: []) ∧
      ∀ f, waiting.busy = some f → f.outstanding ≠ none := by
  refine ⟨fun _ _ => rfl, fun f hf => ?_⟩
  cases hf
  simp

/-- A battery at the ends of the ranges, and a chip whose reset left GPIO_EN at 0. -/
theorem witness_BootLeavesTheDefaultConfiguration :
    (∀ w ∈ [((0x2B#8 : RegNo), (0x01#8 : Byte)), (0x35#8, 0x02#8), (0x5B#8, 0x00#8),
        (0x5D#8, 0x20#8)], batteryRegister w.1 = true) ∧
      ∀ e ∈ [Event.chipByte 0x77#8 0x00#8],
        ∃ reg v, e = .chipByte reg v ∧ reg ≠ 0x5E#8 ∧ reg ≠ 0x5D#8 :=
  ⟨by simp [batteryRegister], fun e he => ⟨0x77#8, 0x00#8, by simpa using he, by decide, by decide⟩⟩

/-- Both readbacks: of the chip after its reset, and of another one. -/
theorem witness_FailedBootWritesTwice :
    (base.bootReadback []).1 = 0x24#8 ∧
      (base.bootReadback [.chipByte 0x5D#8 0x25#8]).1 ≠ 0x24#8 := by decide

theorem witness_SettypeReprogramsTheChip :
    settypeAccepted base 11 .gpioOut ∧ settypeAccepted base 0 .sensor ∧ base.QuietFor 5 :=
  ⟨⟨by decide, by decide⟩, ⟨by decide, by decide⟩, base_quiet 5⟩

/-- The clauses: role 3; a sensor-only pin at its upper end; a channel below a sensor. -/
theorem witness_SettypeRefusesInOrder :
    (3#2 : BitVec 2) = 3#2 ∧ (2#2 : BitVec 2) = Role.gpioOut.code ∧
      ((3 : ChannelIx).val < 4 ∧ Role.gpioOut ≠ .sensor) ∧
      ¬ ((4 : ChannelIx).val < 4 ∧ Role.gpioOut ≠ .sensor) ∧
      ¬ Contiguous (roleUpdate base.role 4 .gpioOut) := by decide

/-- The first and the last write fail. -/
theorem witness_SettypeBusErrorKeepsWhatIsDone :
    settypeAccepted base 11 .gpioOut ∧
      ∀ j, j = 0 ∨ j = 3 → j < 4 ∧
        ({ base with script := List.replicate (j + 1) Slot.quiet ++
          ⟨[], some (.error true)⟩ :: [] } : State).script =
          List.replicate (j + 1) Slot.quiet ++ ⟨[], some (.error true)⟩ :: [] :=
  ⟨⟨by decide, by decide⟩, fun j hj => ⟨by omega, rfl⟩⟩

/-- FIREIRQ before the first micro-step. -/
theorem witness_SettypeLeavesTouchStateAlone :
    ({ base with script := [⟨[.fireIrq], none⟩] } : State).ChipStill ∧
      ∃ t, exec (.settype 11#4 1#2) { base with script := [⟨[.fireIrq], none⟩] } = .next t :=
  ⟨by simp [State.ChipStill], _, rfl⟩

theorem witness_LayoutCheckByCount :
    Contiguous base.role ∧ LowSensors base.role ∧ Contiguous (base.setRole 11 .gpioIn).role ∧
      LowSensors (base.setRole 11 .gpioIn).role := by decide

theorem witness_PackedBytes :
    Contiguous (base.setRole 11 .gpioIn).role ∧ LowSensors (base.setRole 11 .gpioIn).role := by
  decide

theorem witness_ElectrodeCount : LowSensors base.role := by decide

/-- A SETTYPE to GPIO_OUT that completes, and one that fails. -/
theorem witness_OutputsReadLowUntilBusError :
    ((offered 0x4B0002#24).WaitsForTransport ∧ (offered 0x4B0002#24).OutputsReadLow ∧
      ∃ t, step (offered 0x4B0002#24) = .next t ∧
        t.rspOut ≠ (offered 0x4B0002#24).rspOut ++ [0x7000#16]) ∧
    (let s : State := { base.setChan 11
          { Channel.reset with role := .gpioIn, gpioOutputHigh := true }
        with script := [Slot.quiet, ⟨[], some (.error false)⟩] };
      s.role 11 = .gpioIn ∧ (s.chan 11).gpioOutputHigh = true ∧ settypeAccepted s 11 .gpioOut ∧
        s.script = [Slot.quiet, ⟨[], some (.error false)⟩]) :=
  ⟨⟨fun f hf => (by cases hf), .inl (by decide), _, rfl, by decide⟩,
    by decide, by decide, ⟨by decide, by decide⟩, rfl⟩

theorem witness_PullsSetTheControlBits :
    (base.setRole 4 .gpioIn).role 4 = .gpioIn ∧ (base.setRole 4 .gpioIn).QuietFor 4 ∧
      (Instr.pullup (channelOperand 4) = .pullup (channelOperand 4) ∧ true = true) ∧
      (Instr.pulldn (channelOperand 4) = .pulldn (channelOperand 4) ∧ false = false) :=
  ⟨by decide, base_quiet 4, ⟨rfl, rfl⟩, rfl, rfl⟩

theorem witness_GpioenWritesTheEnableBit :
    (base.setRole 4 .gpioIn).role 4 ≠ .sensor ∧ (base.setRole 4 .gpioIn).QuietFor 2 :=
  ⟨by decide, base_quiet 2⟩

theorem witness_GpioenIgnoresSensors : base.role 0 = .sensor ∧ base.role 11 = .sensor := by decide

/-- The lowest and the highest channel with a GPIO bit. -/
theorem witness_BitOperationsIsolateBits :
    4 ≤ (4 : ChannelIx).val ∧ 4 ≤ (11 : ChannelIx).val ∧
      (withInputPin 4 [(0x73, 0xA5#8), (0x77, 0xFC#8)]).QuietFor 4 ∧
      Memory.read (withInputPin 4 [(0x73, 0xA5#8), (0x77, 0xFC#8)]).regs 0x73 = some 0xA5#8 ∧
      Memory.read (withInputPin 4 [(0x73, 0xA5#8), (0x77, 0xFC#8)]).regs 0x77 = some 0xFC#8 ∧
      (withInputPin 4 [(0x73, 0xA5#8), (0x77, 0xFC#8)]).role 4 = .gpioIn ∧
      (withInputPin 11 [(0x74, 0x5A#8)]).role 11 = .gpioIn ∧
      Memory.read (withInputPin 11 [(0x74, 0x5A#8)]).regs 0x74 = some 0x5A#8 :=
  ⟨by decide, by decide, base_quiet 4, by decide, by decide, by decide, by decide, by decide⟩

/-- The third and the fourth request fail. -/
theorem witness_PullCutByBusError :
    ∀ (good : Nat) (landed : Bool), good = 2 ∨ good = 3 →
      let s : State := { withInputPin 9 [(0x73, 0x10#8)] with
        script := List.replicate good Slot.quiet ++ ⟨[], some (.error landed)⟩ :: [] }
      s.role 9 = .gpioIn ∧ Memory.read s.regs 0x73 = some 0x10#8 ∧
        s.script = List.replicate good Slot.quiet ++ ⟨[], some (.error landed)⟩ :: [] :=
  fun _ _ _ => ⟨by rfl, by rfl, rfl⟩

theorem witness_FailedRegisterReadChangesNothing :
    let s : State := { base.setRole 11 .gpioIn with script := [⟨[], some (.error true)⟩] }
    s.script = ⟨[], some (.error true)⟩ :: [] ∧ s.role 11 = .gpioIn ∧ s.role 11 ≠ .sensor := by
  refine ⟨rfl, ?_, ?_⟩ <;> decide

theorem witness_GpiostAnswersTheLevel :
    (base.setRole 11 .gpioOut).role 11 = .gpioOut ∧ (base.setRole 4 .gpioIn).role 4 = .gpioIn ∧
      (base.setRole 4 .gpioIn).QuietFor 2 := ⟨by decide, by decide, base_quiet 2⟩

theorem witness_TchallPolls : base.useIRQ = false ∧ base.QuietFor 2 := ⟨rfl, base_quiet 2⟩

theorem witness_TchallReportsTheLatch :
    (base.setUseIRQ true).useIRQ = true ∧ (base.setUseIRQ true).QuietFor 1 := ⟨rfl, base_quiet 1⟩

theorem witness_TchallTwice :
    (let s := withChip [(0, 0x05#8), (1, 0xF8#8)];
      s.useIRQ = false ∧ s.QuietFor 4 ∧ Memory.read s.regs 0 = some 0x05#8 ∧
        Memory.read s.regs 1 = some 0xF8#8) ∧
      (base.setUseIRQ true).useIRQ = true ∧ (base.setUseIRQ true).QuietFor 2 :=
  ⟨⟨rfl, base_quiet 4, by decide, by decide⟩, rfl, base_quiet 2⟩

theorem witness_FireirqAgainstAggregate :
    (let s : State := { base.setUseIRQ true with script := [⟨[.fireIrq], none⟩] };
      s.useIRQ = true ∧ s.script = ⟨[.fireIrq], none⟩ :: []) ∧
      (let s : State := { base with inputs := [.command 0x100000#24, .event .fireIrq] };
        s.busy = none ∧ s.QuietFor 2 ∧ s.inputs = .command 0x100000#24 :: .event .fireIrq :: []) ∧
      (let s : State := { base with script := [Slot.quiet, ⟨[.fireIrq], none⟩] };
        s.useIRQ = false ∧ s.script = Slot.quiet :: ⟨[.fireIrq], none⟩ :: []) :=
  ⟨⟨rfl, rfl⟩, ⟨rfl, base_quiet 2, rfl⟩, rfl, rfl⟩

/-- TCHALL, and TCHCH of a channel that is TOUCHED inside its window. -/
theorem witness_FailedStatusReadChangesNothing :
    let s : State := { base.setChan 4 touchedChannel with
      debounceDefault := 50#16, script := [⟨[], some (.error true)⟩] }
    s.useIRQ = false ∧ s.script = ⟨[], some (.error true)⟩ :: [] ∧ gatePasses s 4 :=
  ⟨rfl, rfl, by decide, .inl (by decide)⟩

theorem witness_WindowElapses :
    (if (base.chan 0).dbv then (base.chan 0).debounce else base.debounceDefault) = 0#16 := by decide

/-- An idle channel whose window has elapsed, with debounce 0, and a TOUCHED one. -/
theorem witness_TchchMovesTheLatch :
    base.useIRQ = false ∧ gatePasses base 5 ∧ gatePasses (base.setChan 5 touchedChannel) 5 ∧
      base.QuietFor 3 :=
  ⟨rfl, ⟨by decide, .inr (by decide)⟩, ⟨by decide, .inl (by decide)⟩, base_quiet 3⟩

theorem witness_TchchInInterruptMode :
    (base.setUseIRQ true).useIRQ = true ∧ gatePasses (base.setUseIRQ true) 0 ∧
      gatePasses (base.setUseIRQ true) 11 ∧ (base.setUseIRQ true).QuietFor 2 :=
  ⟨rfl, ⟨by decide, .inr (by decide)⟩, ⟨by decide, .inr (by decide)⟩, base_quiet 2⟩

theorem witness_TchchSkipsOutputs : (base.setRole 11 .gpioOut).role 11 = .gpioOut := by decide

/-- The last millisecond of the window (VT2). -/
theorem witness_TchchHeldByTheWindow :
    let s : State := { base with debounceDefault := 50#16, now := 49#32 }
    (s.chan 5).touched = .idle ∧
      (s.now - (s.chan 5).lastTouchTimestamp).toNat < (s.deb 5).toNat := by decide

theorem witness_TimeIsSampledOnce :
    let s : State := { withChip [(0, 0x20#8), (1, 0x00#8)] with
      now := 7#32, script := [⟨[.setNow 9#32], some .ok⟩] }
    s.useIRQ = false ∧ s.role 5 ≠ .gpioOut ∧ (s.chan 5).touched = .idle ∧
      s.elapsed 5 s.now = true ∧ Memory.read s.regs 0 = some 0x20#8 ∧
      Memory.read s.regs 1 = some 0x00#8 ∧
      (0x00#8 ++ 0x20#8 : BitVec 16).getLsbD (5 : ChannelIx).val = true ∧
      s.script = ⟨[.setNow 9#32], some .ok⟩ :: [] ∧ ∀ slot ∈ ([] : List Slot), slot = Slot.quiet := by
  refine ⟨rfl, by decide, by decide, by decide, by decide, by decide, by decide, rfl, by simp⟩

theorem witness_TchchIgnoresOtherChannels :
    (base.setChan 6 touchedChannel).x[(5 : ChannelIx).val] = base.x[(5 : ChannelIx).val] ∧
      ∃ t u, exec (.tchch (channelOperand 5)) base = .next t ∧
        exec (.tchch (channelOperand 5)) { base with x := (base.setChan 6 touchedChannel).x } =
          .next u := ⟨by decide, _, _, rfl, rfl⟩

/-- The refused operands of the two commands, at the ends of the range. -/
theorem witness_DebounceBadChannel : 11 < (12#4).toNat ∧ 11 < (15#4).toNat := by decide

end Sys2Proof.Tests
end

/-! # What a step can do

`step_moves` says once everything a step can do; `microStep_outcome` says it of a micro-step. What
follows is derived from them. -/

section
namespace Sys2Proof.Machine

/-! ## Which input a step takes -/

/-- The next step takes the input `i` and leaves `rest`: it is the first input of an idle block, or
the first one that is no command of a busy one (10_state.md R41). -/
def State.Takes (s : State) (i : Input) (rest : List Input) : Prop :=
  s.busy = none ∧ s.inputs = i :: rest ∨ s.busy ≠ none ∧ takeNonCommand s.inputs = some (i, rest)

/-- Taking an input that is no command leaves the command words in their order. -/
theorem commandWords_takeNonCommand {l rest : List Input} {i : Input}
    (h : takeNonCommand l = some (i, rest)) : commandWords rest = commandWords l := by
  induction l generalizing rest with
  | nil => cases h
  | cons a l ih =>
    cases a with
    | command w =>
      obtain ⟨⟨j, rest'⟩, hl, e⟩ := Option.map_eq_some_iff.mp h
      cases e
      simp [commandWords, ih hl]
    | event e => cases h; rfl
    | answer a => cases h; rfl

/-- The input that is taken is one of the inputs, and no command. -/
theorem takeNonCommand_mem {l rest : List Input} {i : Input}
    (h : takeNonCommand l = some (i, rest)) : i ∈ l ∧ ∀ w, i ≠ .command w := by
  induction l generalizing rest with
  | nil => cases h
  | cons a l ih =>
    cases a with
    | command w =>
      obtain ⟨⟨j, rest'⟩, hl, e⟩ := Option.map_eq_some_iff.mp h
      cases e
      exact ⟨List.mem_cons_of_mem _ (ih hl).1, (ih hl).2⟩
    | event e => cases h; simp
    | answer a => cases h; simp

theorem State.Takes.mem {s : State} {i : Input} {rest : List Input} (h : s.Takes i rest) :
    i ∈ s.inputs := by
  rcases h with ⟨-, h⟩ | ⟨-, h⟩
  · simp [h]
  · exact (takeNonCommand_mem h).1

/-! ## The cases of a step -/

/-- An answer nobody waits for is discarded (70_reset_and_hazards.md R211). -/
theorem lateAnswer_idle {s : State} (a : Answer) (hb : s.busy = none) : s.lateAnswer a = s := by
  simp [State.lateAnswer, hb]

theorem lateAnswer_waiting {s : State} {f : InFlight} {r : Request} {op : MicroOp}
    {ops : List MicroOp} (a : Answer) (hb : s.busy = some f) (ho : f.outstanding = some r)
    (ht : f.todo = op :: ops) : s.lateAnswer a = (answerOp s f op ops r a).run := by
  simp [State.lateAnswer, hb, ho, ht]

theorem lateAnswer_done {s : State} {f : InFlight} {r : Request} (a : Answer)
    (hb : s.busy = some f) (ho : f.outstanding = some r) (ht : f.todo = []) :
    s.lateAnswer a = s := by
  simp [State.lateAnswer, hb, ho, ht]

/-- Everything a step from `s` can do, by what it takes. -/
inductive Moves (s : State) : State → Prop where
  /-- Nothing moves, or an answer nobody waits for is discarded. -/
  | settled (rest : List Input) : commandWords rest = commandWords s.inputs →
      Moves s { s with inputs := rest }
  | event (e : Event) (rest : List Input) : s.Takes (.event e) rest →
      Moves s (({ s with inputs := rest } : State).applyEvent e)
  /-- A command in progress that does not wait goes on. -/
  | run (f : InFlight) : s.busy = some f → f.outstanding = none → Moves s s.run
  /-- The late answer to the request of the micro-step `op`. -/
  | answer (f : InFlight) (r : Request) (op : MicroOp) (ops : List MicroOp) (a : Answer)
      (rest : List Input) : s.busy = some f → f.outstanding = some r → f.todo = op :: ops →
      takeNonCommand s.inputs = some (.answer a, rest) →
      Moves s (answerOp { s with inputs := rest } f op ops r a).run
  | command (w : CommandWord) (i : Instr) (rest : List Input) (t : State) : s.busy = none →
      s.inputs = .command w :: rest → decode w = .ok i →
      exec i { s with inputs := rest } = .next t → Moves s t
  | illegal (w : CommandWord) (rest : List Input) : s.busy = none →
      s.inputs = .command w :: rest →
      Moves s (({ s with inputs := rest } : State).reject .illegalOp)

/-- A busy block goes on, waits, or takes the first input that is no command. -/
theorem busyMove_moves {s t : State} {f : InFlight} (hb : s.busy = some f)
    (h : busyMove s f = .settled t) : Moves s t := by
  have busy : s.busy ≠ none := by simp [hb]
  unfold busyMove at h
  cases ho : f.outstanding with
  | none =>
    rw [ho] at h
    cases h
    exact .run f hb ho
  | some r =>
    rw [ho] at h
    cases hi : takeNonCommand s.inputs with
    | none =>
      rw [hi] at h
      cases h
      exact .settled s.inputs rfl
    | some p =>
      obtain ⟨i, rest⟩ := p
      rw [hi] at h
      cases h
      cases i with
      | command w => exact absurd rfl ((takeNonCommand_mem hi).2 w)
      | event e => exact .event e rest (.inr ⟨busy, hi⟩)
      | answer a =>
        have hb' : ({ s with inputs := rest } : State).busy = some f := hb
        simp only [State.absorb]
        cases ht : f.todo with
        | nil =>
          rw [lateAnswer_done a hb' ho ht]
          exact .settled rest (commandWords_takeNonCommand hi)
        | cons op ops =>
          rw [lateAnswer_waiting a hb' ho ht]
          exact .answer f r op ops a rest hb ho ht hi

/-- A busy block never accepts a command. -/
theorem busyMove_settled (s : State) (f : InFlight) : ∃ t, busyMove s f = .settled t := by
  unfold busyMove
  cases f.outstanding with
  | none => exact ⟨_, rfl⟩
  | some r => cases takeNonCommand s.inputs <;> exact ⟨_, rfl⟩

theorem step_busy {s : State} {f : InFlight} (hb : s.busy = some f) :
    ∃ t, busyMove s f = .settled t ∧ step s = .next t := by
  obtain ⟨t, ht⟩ := busyMove_settled s f
  exact ⟨t, ht, by simp [step, nextMove, hb, ht]⟩

theorem step_nothing {s : State} (hb : s.busy = none) (hi : s.inputs = []) : step s = .next s := by
  simp [step, nextMove, hb, hi]

/-- Settles O6: the word leaves the port, and what it decodes to runs. -/
theorem stepRunsDecodedInstruction : Obligations.StepRunsDecodedInstruction := by
  intro s w rest i hb hi hd
  simp [step, nextMove, hb, hi, hd]

theorem step_illegal {s : State} {w : CommandWord} {rest : List Input} {e : DecodeError}
    (hb : s.busy = none) (hi : s.inputs = .command w :: rest) (hd : decode w = .error e) :
    step s = .next (({ s with inputs := rest } : State).reject .illegalOp) := by
  simp [step, nextMove, hb, hi, hd, rejectIllegal]

theorem step_event {s : State} {e : Event} {rest : List Input} (hb : s.busy = none)
    (hi : s.inputs = .event e :: rest) :
    step s = .next (({ s with inputs := rest } : State).applyEvent e) := by
  simp [step, nextMove, hb, hi, State.absorb]

theorem step_unawaited {s : State} {a : Answer} {rest : List Input} (hb : s.busy = none)
    (hi : s.inputs = .answer a :: rest) : step s = .next { s with inputs := rest } := by
  simp [step, nextMove, hb, hi, State.absorb, lateAnswer_idle]

/-- A step does one of the things `Moves` lists. -/
theorem step_moves {s t : State} (h : step s = .next t) : Moves s t := by
  cases hb : s.busy with
  | some f =>
    obtain ⟨u, hu, e⟩ := step_busy hb
    cases e.symm.trans h
    exact busyMove_moves hb hu
  | none =>
    cases hi : s.inputs with
    | nil =>
      cases (step_nothing hb hi).symm.trans h
      exact .settled s.inputs rfl
    | cons i rest =>
      cases i with
      | command w =>
        cases hd : decode w with
        | ok i =>
          exact .command w i rest t hb hi hd
            ((stepRunsDecodedInstruction s w rest i hb hi hd).symm.trans h)
        | error e =>
          cases (step_illegal hb hi hd).symm.trans h
          exact .illegal w rest hb hi
      | event e =>
        cases (step_event hb hi).symm.trans h
        exact .event e rest (.inl ⟨hb, hi⟩)
      | answer a =>
        cases (step_unawaited hb hi).symm.trans h
        exact .settled rest (by rw [hi]; rfl)

end Sys2Proof.Machine
end

/-! # What the surroundings can do to the block -/

section
namespace Sys2Proof.Machine

/-- A request, or an answer, has moved the chip and the request port, and nothing else. -/
structure ChipMoves (s u : State) : Prop where
  frame : u = { s with
    xpOut := u.xpOut, regs := u.regs, outLatch := u.outLatch, draws := u.draws }
  wf : Memory.wf s.regs → Memory.wf u.regs

/-- The chip, the environment and the interrupt latch may have moved; the rest of the block, the
inputs and the responses have not. -/
structure EnvMoves (s u : State) : Prop where
  frame : u = { s with
    interrupted := u.interrupted, now := u.now, script := u.script, xpOut := u.xpOut,
    regs := u.regs, outLatch := u.outLatch, draws := u.draws }
  wf : Memory.wf s.regs → Memory.wf u.regs

namespace EnvMoves
variable {s u v : State}

theorem refl (s : State) : EnvMoves s s := ⟨rfl, id⟩

theorem trans (h : EnvMoves s u) (h' : EnvMoves u v) : EnvMoves s v := by
  refine ⟨h'.frame.trans ?_, h'.wf ∘ h.wf⟩
  rw [h.frame]

theorem x (h : EnvMoves s u) : u.x = s.x := by rw [h.frame]
theorem address (h : EnvMoves s u) : u.address = s.address := by rw [h.frame]
theorem debounceDefault (h : EnvMoves s u) : u.debounceDefault = s.debounceDefault := by
  rw [h.frame]
theorem busy (h : EnvMoves s u) : u.busy = s.busy := by rw [h.frame]
theorem inputs (h : EnvMoves s u) : u.inputs = s.inputs := by rw [h.frame]
theorem rspOut (h : EnvMoves s u) : u.rspOut = s.rspOut := by rw [h.frame]

theorem chan (h : EnvMoves s u) (c : ChannelIx) : u.chan c = s.chan c := chan_congr h.x c
theorem role (h : EnvMoves s u) : u.role = s.role := role_congr h.x

end EnvMoves

namespace ChipMoves
variable {s u v : State}

theorem trans (h : ChipMoves s u) (h' : ChipMoves u v) : ChipMoves s v := by
  refine ⟨h'.frame.trans ?_, h'.wf ∘ h.wf⟩
  rw [h.frame]

theorem env (h : ChipMoves s u) : EnvMoves s u := by
  refine ⟨h.frame.trans ?_, h.wf⟩
  rw [h.frame]

theorem interrupted (h : ChipMoves s u) : u.interrupted = s.interrupted := by
  rw [h.frame]
theorem script (h : ChipMoves s u) : u.script = s.script := by rw [h.frame]

end ChipMoves

theorem logRequest_chipMoves (s : State) (r : Request) : ChipMoves s (s.logRequest r) := ⟨rfl, id⟩

theorem perform_chipMoves (s : State) (r : Request) : ChipMoves s (s.perform r).2 :=
  ⟨(perform_frame s r).trans (by rw [perform_frame]), fun h => wf_perform h r⟩

theorem performFailed_chipMoves (s : State) (r : Request) (landed : Bool) :
    ChipMoves s (s.performFailed r landed) :=
  ⟨(performFailed_frame s r landed).trans (by rw [performFailed_frame]),
    fun h => wf_performFailed h r landed⟩

/-! ## Events -/

/-- One event leaves the block alone, but for the latch, or is `rst`. -/
theorem applyEvent_cases (s : State) (e : Event) :
    EnvMoves s (s.applyEvent e) ∨
      (∃ b, e = .rst b) ∧ EnvMoves s.resetBlock (s.applyEvent e) := by
  by_cases h : ∃ b, e = .rst b
  · refine .inr ⟨h, ?_, fun hw => wf_applyEvent (s := s) hw e⟩
    obtain ⟨b, rfl⟩ := h
    have e : s.applyEvent (.rst b) = s.rst b := rfl
    rw [e, rst_frame]
  · refine .inl ⟨?_, fun hw => wf_applyEvent hw e⟩
    have frame := applyEvent_frame s fun b hb => h ⟨b, hb⟩
    exact frame.trans (by rw [frame])

/-- Resetting a block that the environment has moved is resetting the block, and moving. -/
theorem EnvMoves.resetBlock {s u : State} (h : EnvMoves s u) :
    EnvMoves s.resetBlock u.resetBlock := by
  refine ⟨?_, h.wf⟩
  rw [h.frame]
  rfl

theorem applyEvents_cases (s : State) (es : List Event) :
    EnvMoves s (s.applyEvents es) ∨
      (∃ b, Event.rst b ∈ es) ∧ EnvMoves s.resetBlock (s.applyEvents es) := by
  induction es generalizing s with
  | nil => exact .inl (.refl s)
  | cons e es ih =>
    have split : s.applyEvents (e :: es) = (s.applyEvent e).applyEvents es := rfl
    rw [split]
    rcases ih (s.applyEvent e) with later | ⟨⟨b, hb⟩, later⟩
    · rcases applyEvent_cases s e with first | ⟨⟨b, rfl⟩, first⟩
      · exact .inl (first.trans later)
      · exact .inr ⟨⟨b, by simp⟩, first.trans later⟩
    · refine .inr ⟨⟨b, List.mem_cons_of_mem _ hb⟩, ?_⟩
      rcases applyEvent_cases s e with first | ⟨-, first⟩
      · exact first.resetBlock.trans later
      · exact first.resetBlock.trans later

/-- Just before a micro-step the block is as it was, but for the latch, or a `rst` of the script has
reset it. -/
theorem arrive_cases (s : State) :
    EnvMoves s s.arrive ∨ ¬ s.NoRstInside ∧ EnvMoves s.resetBlock s.arrive := by
  have drop : EnvMoves s s.dropSlot := ⟨rfl, id⟩
  rcases applyEvents_cases s.dropSlot s.nextSlot.events with h | ⟨⟨b, hb⟩, h⟩
  · exact .inl (drop.trans h)
  · refine .inr ⟨fun hn => ?_, drop.resetBlock.trans h⟩
    rcases nextSlot_mem s with e | e
    · rw [e] at hb; simp [Slot.quiet] at hb
    · exact hn _ e b hb

/-! ## Answers and micro-steps -/

/-- What a micro-step comes to from a block `u` at its instant: it ends, or the command ends with
BUS_ERROR, or its request waits. -/
inductive OpOutcome (u : State) (f : InFlight) (op : MicroOp) (rest : List MicroOp) :
    State → Prop where
  | finished (d : BitVec 16) : OpOutcome u f op rest (finishOp u f op rest d)
  | failed : OpOutcome u f op rest (u.reject .busError)
  | waiting (r : Request) : opRequest u f op = some r →
      OpOutcome u f op rest { u with busy := some { f with outstanding := some r } }

/-- An answer without error ends the micro-step, one with it the command; otherwise only the chip
moves. -/
theorem answerOp_outcome (s : State) (f : InFlight) (op : MicroOp) (rest : List MicroOp)
    (r : Request) (a : Answer) :
    ∃ u, ChipMoves s u ∧ OpOutcome u f op rest (answerOp s f op rest r a) := by
  cases a with
  | ok => exact ⟨_, perform_chipMoves s r, answerOp_ok s f op rest r ▸ .finished _⟩
  | error l => exact ⟨_, performFailed_chipMoves s r l, answerOp_error s f op rest r l ▸ .failed⟩

/-- What a micro-step comes to when no `rst` has fallen before it, in terms of the instant at which
it runs. -/
theorem microStep_arrive (s : State) (f : InFlight) (op : MicroOp) (rest : List MicroOp) :
    microStep s f op rest = s.arrive ∧ s.arrive.busy = none ∨
      ∃ u, ChipMoves s.arrive u ∧ OpOutcome u f op rest (microStep s f op rest) := by
  rcases microStep_cases s f op rest with ⟨h, e⟩ | ⟨-, ⟨-, e⟩ | ⟨r, a, -, -, e⟩ | ⟨r, hr, -, e⟩⟩
  · exact .inl ⟨e, h⟩
  · exact .inr ⟨_, ⟨rfl, id⟩, e ▸ .finished _⟩
  · obtain ⟨u, hu, out⟩ := answerOp_outcome (s.arrive.logRequest r) f op rest r a
    exact .inr ⟨u, (logRequest_chipMoves _ r).trans hu, e ▸ out⟩
  · refine .inr ⟨_, logRequest_chipMoves _ r, e ▸ .waiting r ?_⟩
    rw [← hr]
    exact opRequest_congr rfl rfl

/-- Everything a micro-step of a busy block can do: `rst` fell before it, or the environment moved
and the micro-step came to one of its outcomes. -/
theorem microStep_outcome {s : State} {f g : InFlight} (op : MicroOp) (rest : List MicroOp)
    (hb : s.busy = some g) :
    ¬ s.NoRstInside ∧ EnvMoves s.resetBlock (microStep s f op rest) ∨
      ∃ u, EnvMoves s u ∧ OpOutcome u f op rest (microStep s f op rest) := by
  rcases arrive_cases s with h | ⟨hn, h⟩
  · rcases microStep_arrive s f op rest with ⟨-, idle⟩ | ⟨u, hu, out⟩
    · rw [h.busy, hb] at idle; cases idle
    · exact .inr ⟨u, h.trans hu.env, out⟩
  · left
    rcases microStep_cases s f op rest with ⟨-, e⟩ | ⟨busy, -⟩
    · exact ⟨hn, e ▸ h⟩
    · exact absurd h.busy busy

end Sys2Proof.Machine
end

/-! # Reset -/

section
namespace Sys2Proof.Machine

theorem chan_reset (c : ChannelIx) : State.reset.chan c = Channel.reset := by
  simp [State.chan, State.reset]

/-- Settles O16. -/
theorem resetValues : Obligations.ResetValues :=
  ⟨chan_reset, rfl, rfl, rfl, rfl, rfl⟩

/-- A block with every channel as after reset has SENSORs only (10_state.md R45). -/
theorem role_of_reset {s : State} (h : ∀ c, s.chan c = Channel.reset) :
    s.role = fun _ => .sensor := by
  funext c
  rw [State.role, h]
  rfl

/-- Settles O18: a table of SENSORs is contiguous, nothing is listed of the chip, and the sequencer
is idle. -/
theorem resetMeetsInvariant : Obligations.ResetMeetsInvariant := by
  have role := role_of_reset chan_reset
  exact ⟨role ▸ fun _ _ _ _ => rfl, role ▸ fun _ _ => rfl, rfl, wf_reset, fun f hf => by cases hf⟩

end Sys2Proof.Machine
end

section
namespace Sys2Proof.Machine

/-! ## What the end of a micro-step keeps -/

theorem finishOp_frame (u : State) (f : InFlight) (op : MicroOp) (rest : List MicroOp)
    (d : BitVec 16) :
    finishOp u f op rest d = { u with
      x := (opEffect u f op).x
      interrupted := (opEffect u f op).interrupted
      busy := some { opSequencer u f d op with todo := rest, outstanding := none } } := by
  rw [finishOp, opEffect_frame]

/-- No micro-step changes the sample of `now` (10_state.md R36). -/
@[simp] theorem opSequencer_t (s : State) (f : InFlight) (d : BitVec 16) (op : MicroOp) :
    (opSequencer s f d op).t = f.t := by
  cases op <;> rfl

namespace OpOutcome
variable {u m : State} {f : InFlight} {op : MicroOp} {rest : List MicroOp}

theorem inputs (h : OpOutcome u f op rest m) : m.inputs = u.inputs := by
  cases h with
  | finished d => rw [finishOp_frame]
  | failed => rfl
  | waiting r hr => rfl

theorem script (h : OpOutcome u f op rest m) : m.script = u.script := by
  cases h with
  | finished d => rw [finishOp_frame]
  | failed => rfl
  | waiting r hr => rfl

end OpOutcome

/-- A micro-step takes one slot of the script. -/
theorem microStep_script (s : State) (f : InFlight) (op : MicroOp) (rest : List MicroOp) :
    (microStep s f op rest).script = s.script.tail := by
  rw [← (arrive_ports s).2.2.2]
  rcases microStep_arrive s f op rest with ⟨e, -⟩ | ⟨u, hu, out⟩
  · rw [e]
  · rw [out.script, hu.script]

theorem microStep_inputs (s : State) (f : InFlight) (op : MicroOp) (rest : List MicroOp) :
    (microStep s f op rest).inputs = s.inputs := by
  rw [← (arrive_ports s).2.2.1]
  rcases microStep_arrive s f op rest with ⟨e, -⟩ | ⟨u, hu, out⟩
  · rw [e]
  · rw [out.inputs, hu.env.inputs]

/-- What holds of every slot of the script holds of those that remain after a micro-step. -/
theorem microStep_slots {p : Slot → Prop} {s : State} (h : ∀ slot ∈ s.script, p slot) (f : InFlight)
    (op : MicroOp) (rest : List MicroOp) : ∀ slot ∈ (microStep s f op rest).script, p slot := by
  rw [microStep_script]
  exact fun slot hs => h slot (List.mem_of_mem_tail hs)

end Sys2Proof.Machine
end

/-! # The command port of a busy block -/

section
namespace Sys2Proof.Machine

theorem run_inputs (s : State) : s.run.inputs = s.inputs := by
  refine run_induction (P := fun u => u.inputs = s.inputs) (Q := fun u => u.inputs = s.inputs)
    ?step ?done ?idle ?waiting rfl
  case step => exact fun u f op rest h _ _ _ => (microStep_inputs u f op rest).trans h
  case done => exact fun u f h _ _ _ => h
  case idle => exact fun u h _ => h
  case waiting => exact fun u f r h _ _ => h

theorem applyEvent_inputs (s : State) (e : Event) : (s.applyEvent e).inputs = s.inputs :=
  (applyEvents_ports s [e]).2.2.1

theorem answerOp_inputs (s : State) (f : InFlight) (op : MicroOp) (rest : List MicroOp)
    (r : Request) (a : Answer) : (answerOp s f op rest r a).inputs = s.inputs := by
  obtain ⟨u, hu, out⟩ := answerOp_outcome s f op rest r a
  rw [out.inputs, hu.env.inputs]

/-- Settles O12: whatever a step of a busy block takes is no command word. -/
theorem busyBlockAcceptsNoCommand : Obligations.BusyBlockAcceptsNoCommand := by
  intro s t f hb h
  cases step_moves h with
  | settled rest hr => exact hr
  | event e rest taken =>
    rw [applyEvent_inputs]
    rcases taken with ⟨idle, -⟩ | ⟨-, taken⟩
    · rw [hb] at idle; cases idle
    · exact commandWords_takeNonCommand taken
  | run f' _ _ => rw [run_inputs]
  | answer f' r op ops a rest _ _ _ taken =>
    rw [run_inputs, answerOp_inputs]
    exact commandWords_takeNonCommand taken
  | command w i rest t idle _ _ _ => rw [hb] at idle; cases idle
  | illegal w rest idle _ => rw [hb] at idle; cases idle

end Sys2Proof.Machine
end

/-! # The programme of a command in progress

The micro-steps that remain of a command are a tail of those it was accepted with. `Programme` says
which tails there are, with what S0 has checked for the micro-steps that lean on it. -/

section
namespace Sys2Proof.Machine

/-- A micro-step that no check of S0 stands behind: all but the assignment of a role, the judgement
of a touch and the caching of a level. -/
def MicroOp.plain : MicroOp → Bool
  | .assignRole _ _ | .judgeTouch _ | .cacheLevel _ => false
  | .writeEnable | .writeDirection | .writeElectrodes | .clearOutputs | .readRegister _
  | .writeBit _ _ _ | .readStatus | .takeStatus | .takeLatch => true

/-- What remains of a TCHCH that has its touch still to judge, in either mode
(42_touch_detection.md R140, R145). -/
def queryStages (c : ChannelIx) : List (List MicroOp) :=
  [[.readStatus, .takeStatus, .judgeTouch c], [.takeStatus, .judgeTouch c],
    [.takeLatch, .judgeTouch c], [.judgeTouch c]]

/-- What remains of a GPIOST of an input that has its level still to cache (41_gpio_bit_ops.md
R126). -/
def levelStages (c : ChannelIx) : List (List MicroOp) :=
  [[.readRegister regGpioDat, .cacheLevel c], [.cacheLevel c]]

/-- The channel is TOUCHED, or its window has elapsed at the sample `t` (42_touch_detection.md
R145). -/
def GateOpen (s : State) (c : ChannelIx) (t : Time) : Prop :=
  (s.chan c).touched = .touched ∨ s.elapsed c t = true

/-- The micro-steps that may remain of a command accepted at `t`. -/
inductive Programme (s : State) (t : Time) : List MicroOp → Prop where
  | plain {ops : List MicroOp} : (∀ op ∈ ops, op.plain = true) → Programme s t ops
  | settype {c : ChannelIx} {r : Role} : settypeAccepted s c r → Programme s t (settypeOps c r)
  | query {c : ChannelIx} {ops : List MicroOp} : ops ∈ queryStages c → GateOpen s c t →
      Programme s t ops
  | level {c : ChannelIx} {ops : List MicroOp} : ops ∈ levelStages c → s.role c = .gpioIn →
      Programme s t ops

/-- The programme depends on the channel records and the device-wide debounce value only. -/
theorem Programme.congr {s u : State} {t : Time} {ops : List MicroOp} (hx : u.x = s.x)
    (hd : u.debounceDefault = s.debounceDefault) (h : Programme s t ops) : Programme u t ops := by
  have role := role_congr hx
  cases h with
  | plain hp => exact .plain hp
  | settype ha => exact .settype (by rwa [settypeAccepted, role])
  | @query c _ hs hg =>
    refine .query hs ?_
    rwa [GateOpen, elapsed_congr (chan_congr hx c) hd, chan_congr hx]
  | level hs hr => exact .level hs (by rwa [role])

/-- The first micro-step of a query touches no record and leaves a query, or it is the judgement and
the last one. -/
theorem queryStages_cons {c : ChannelIx} {op : MicroOp} {rest : List MicroOp}
    (h : op :: rest ∈ queryStages c) :
    op = .judgeTouch c ∧ rest = [] ∨
      rest ∈ queryStages c ∧ ∀ s f, (opEffect s f op).x = s.x := by
  simp only [queryStages, List.mem_cons, List.cons.injEq, List.not_mem_nil, or_false] at h
  rcases h with ⟨rfl, rfl⟩ | ⟨rfl, rfl⟩ | ⟨rfl, rfl⟩ | ⟨rfl, rfl⟩
  · exact .inr ⟨by simp [queryStages], fun _ _ => rfl⟩
  · exact .inr ⟨by simp [queryStages], fun _ _ => rfl⟩
  · exact .inr ⟨by simp [queryStages], fun _ _ => rfl⟩
  · exact .inl ⟨rfl, rfl⟩

/-- The same of a GPIOST: the read touches no record, and caching the level is the last
micro-step. -/
theorem levelStages_cons {c : ChannelIx} {op : MicroOp} {rest : List MicroOp}
    (h : op :: rest ∈ levelStages c) :
    op = .cacheLevel c ∧ rest = [] ∨
      rest ∈ levelStages c ∧ ∀ s f, (opEffect s f op).x = s.x := by
  simp only [levelStages, List.mem_cons, List.cons.injEq, List.not_mem_nil, or_false] at h
  rcases h with ⟨rfl, rfl⟩ | ⟨rfl, rfl⟩
  · exact .inr ⟨by simp [levelStages], fun _ _ => rfl⟩
  · exact .inl ⟨rfl, rfl⟩

/-- The micro-step that is done leaves a programme behind. -/
theorem Programme.next {s : State} {f : InFlight} {op : MicroOp} {rest : List MicroOp}
    (h : Programme s f.t (op :: rest)) : Programme (opEffect s f op) f.t rest := by
  generalize e : op :: rest = ops at h
  cases h with
  | plain hp => exact .plain fun o ho => hp o (e ▸ List.mem_cons_of_mem _ ho)
  | @settype c r ha => cases e; exact .plain (by simp [MicroOp.plain])
  | query hs hg =>
    subst e
    rcases queryStages_cons hs with ⟨-, rfl⟩ | ⟨hrest, hx⟩
    · exact .plain (by simp)
    · exact (Programme.query hrest hg).congr (hx s f) (by rw [opEffect_frame])
  | level hs hr =>
    subst e
    rcases levelStages_cons hs with ⟨-, rfl⟩ | ⟨hrest, hx⟩
    · exact .plain (by simp)
    · exact (Programme.level hrest hr).congr (hx s f) (by rw [opEffect_frame])

/-- S1 of SETTYPE is the first micro-step of an accepted SETTYPE. -/
theorem Programme.assigns {s : State} {t : Time} {c : ChannelIx} {r : Role} {rest : List MicroOp}
    (h : Programme s t (.assignRole c r :: rest)) :
    settypeAccepted s c r ∧ .assignRole c r :: rest = settypeOps c r := by
  generalize e : MicroOp.assignRole c r :: rest = ops at h
  cases h with
  | plain hp => cases hp (.assignRole c r) (by simp [← e])
  | settype ha => cases e; exact ⟨ha, rfl⟩
  | query hs _ => subst e; simp [queryStages] at hs
  | level hs _ => subst e; simp [levelStages] at hs

/-- A touch is judged only by a query whose gate is open. -/
theorem Programme.judges {s : State} {t : Time} {ops : List MicroOp} {c : ChannelIx}
    (h : Programme s t ops) (hc : .judgeTouch c ∈ ops) : ops ∈ queryStages c ∧ GateOpen s c t := by
  cases h with
  | plain hp => cases hp _ hc
  | settype _ => simp [settypeOps] at hc
  | @query j _ hs hg =>
    obtain rfl : c = j := by
      simp only [queryStages, List.mem_cons, List.not_mem_nil, or_false] at hs
      rcases hs with rfl | rfl | rfl | rfl <;> simpa using hc
    exact ⟨hs, hg⟩
  | level hs _ =>
    simp only [levelStages, List.mem_cons, List.not_mem_nil, or_false] at hs
    rcases hs with rfl | rfl <;> simp at hc

/-- A level is cached for an input only. -/
theorem Programme.caches {s : State} {t : Time} {ops : List MicroOp} {c : ChannelIx}
    (h : Programme s t ops) (hc : .cacheLevel c ∈ ops) : s.role c = .gpioIn := by
  cases h with
  | plain hp => cases hp _ hc
  | settype _ => simp [settypeOps] at hc
  | query hs _ =>
    simp only [queryStages, List.mem_cons, List.not_mem_nil, or_false] at hs
    rcases hs with rfl | rfl | rfl | rfl <;> simp at hc
  | @level j _ hs hr =>
    obtain rfl : c = j := by
      simp only [levelStages, List.mem_cons, List.not_mem_nil, or_false] at hs
      rcases hs with rfl | rfl <;> simpa using hc
    exact hr

/-- The sequencer is idle, or has a programme to run; and if it waits, then for the request of its
next micro-step. -/
def State.Sound (s : State) : Prop :=
  ∀ f, s.busy = some f → Programme s f.t f.todo ∧
    ∀ r, f.outstanding = some r → ∃ op rest, f.todo = op :: rest ∧ opRequest s f op = some r

theorem sound_idle {s : State} (h : s.busy = none) : s.Sound := by
  intro f hf
  rw [h] at hf
  cases hf

theorem State.Sound.env {s u : State} (hu : EnvMoves s u) (h : s.Sound) : u.Sound := by
  intro f hf
  obtain ⟨prog, waits⟩ := h f (hu.busy ▸ hf)
  refine ⟨prog.congr hu.x hu.debounceDefault, fun r hr => ?_⟩
  obtain ⟨op, rest, ht, hreq⟩ := waits r hr
  exact ⟨op, rest, ht, (opRequest_congr hu.x hu.address).trans hreq⟩

theorem sound_accept {s : State} {ops : List MicroOp} (h : Programme s s.now ops) :
    (s.accept ops).Sound := by
  intro f hf
  cases hf
  exact ⟨h.congr (s := s) rfl rfl, fun r hr => by cases hr⟩

theorem finishOp_sound {u : State} {f : InFlight} {op : MicroOp} {rest : List MicroOp}
    (h : Programme u f.t (op :: rest)) (d : BitVec 16) : (finishOp u f op rest d).Sound := by
  intro g hg
  cases hg
  refine ⟨?_, fun r hr => by cases hr⟩
  rw [opSequencer_t]
  exact h.next.congr (s := opEffect u f op) rfl rfl

/-- Every outcome of a micro-step leaves a sound sequencer. -/
theorem OpOutcome.sound {u m : State} {f : InFlight} {op : MicroOp} {rest : List MicroOp}
    (ht : f.todo = op :: rest) (hp : Programme u f.t f.todo) (h : OpOutcome u f op rest m) :
    m.Sound := by
  cases h with
  | finished d => exact finishOp_sound (ht ▸ hp) d
  | failed => exact sound_idle rfl
  | waiting r hr =>
    intro g hg
    cases hg
    refine ⟨hp.congr (s := u) rfl rfl, fun q hq => ⟨op, rest, ht, ?_⟩⟩
    cases hq
    exact hr ▸ opRequest_congr rfl rfl

theorem microStep_sound {s : State} {f : InFlight} {op : MicroOp} {rest : List MicroOp}
    (h : s.Sound) (hb : s.busy = some f) (ht : f.todo = op :: rest) :
    (microStep s f op rest).Sound := by
  rcases microStep_outcome op rest hb with ⟨-, reset⟩ | ⟨u, hu, out⟩
  · exact sound_idle reset.busy
  · exact out.sound ht ((h f hb).1.congr hu.x hu.debounceDefault)

/-! ## A block that waits -/

/-- At a request no role is left to assign; a query or a GPIOST with its level to cache is at its
first micro-step. -/
theorem Programme.at_request {s : State} {f : InFlight} {t : Time} {op : MicroOp}
    {rest : List MicroOp} (h : Programme s t (op :: rest)) (hr : opRequest s f op ≠ none) :
    (∀ c r, MicroOp.assignRole c r ∉ op :: rest) ∧
      (∀ c, MicroOp.judgeTouch c ∈ op :: rest →
        op :: rest = [.readStatus, .takeStatus, .judgeTouch c] ∧ GateOpen s c t) ∧
      ∀ c, MicroOp.cacheLevel c ∈ op :: rest →
        op :: rest = [.readRegister regGpioDat, .cacheLevel c] ∧ s.role c = .gpioIn := by
  generalize e : op :: rest = ops at h ⊢
  cases h with
  | plain hp =>
    refine ⟨fun c r hm => ?_, fun c hm => ?_, fun c hm => ?_⟩ <;> cases hp _ hm
  | settype _ => cases e; exact absurd rfl hr
  | query hs hg =>
    simp only [queryStages, List.mem_cons, List.not_mem_nil, or_false] at hs
    rcases hs with rfl | rfl | rfl | rfl
    · simpa using hg
    all_goals cases e; exact absurd rfl hr
  | level hs hc =>
    simp only [levelStages, List.mem_cons, List.not_mem_nil, or_false] at hs
    rcases hs with rfl | rfl
    · simpa using hc
    · cases e; exact absurd rfl hr

/-- A sound sequencer that is idle or has a request without an answer waits as the invariant
says. -/
theorem sound_waits {s : State} (h : s.Sound)
    (hw : ∀ f, s.busy = some f → f.outstanding ≠ none) : s.WaitsForTransport := by
  intro f hb
  obtain ⟨prog, waits⟩ := h f hb
  obtain ⟨r, ho⟩ := Option.ne_none_iff_exists'.mp (hw f hb)
  obtain ⟨op, rest, ht, hr⟩ := waits r ho
  rw [ht] at prog ⊢
  exact ⟨⟨r, op, rest, ho, rfl, hr⟩, prog.at_request (f := f) (by simp [hr])⟩

theorem MicroOp.plain_or (op : MicroOp) :
    op.plain = true ∨ (∃ c r, op = .assignRole c r) ∨ (∃ c, op = .judgeTouch c) ∨
      ∃ c, op = .cacheLevel c := by
  cases op <;> simp [MicroOp.plain]

theorem waits_sound {s : State} (h : s.WaitsForTransport) : s.Sound := by
  intro f hb
  obtain ⟨⟨r, op, rest, ho, ht, hr⟩, noRole, query, level⟩ := h f hb
  refine ⟨?_, fun q hq => ⟨op, rest, ht, hr.trans (ho.symm.trans hq)⟩⟩
  by_cases hq : ∃ c, MicroOp.judgeTouch c ∈ f.todo
  · obtain ⟨c, hc⟩ := hq
    obtain ⟨e, gate⟩ := query c hc
    exact .query (c := c) (by simp [e, queryStages]) gate
  by_cases hl : ∃ c, MicroOp.cacheLevel c ∈ f.todo
  · obtain ⟨c, hc⟩ := hl
    obtain ⟨e, role⟩ := level c hc
    exact .level (c := c) (by simp [e, levelStages]) role
  refine .plain fun o ho => ?_
  rcases o.plain_or with plain | ⟨c, r, rfl⟩ | ⟨c, rfl⟩ | ⟨c, rfl⟩
  · exact plain
  · exact absurd ho (noRole c r)
  · exact absurd ⟨c, ho⟩ hq
  · exact absurd ⟨c, ho⟩ hl

end Sys2Proof.Machine
end

/-! # What S0 of a command does -/

section
namespace Sys2Proof.Machine

/-- The command has answered in S0: of the block only the mode and the debounce configuration may
have changed (60_exceptions.md R180, 44_debounce_config.md). -/
structure AnswersAtOnce (s t : State) : Prop where
  frame : t = { s with
    x := t.x, useIRQ := t.useIRQ, debounceDefault := t.debounceDefault, busy := none,
    rspOut := t.rspOut }
  chan : ∀ c, t.chan c = { s.chan c with dbv := (t.chan c).dbv, debounce := (t.chan c).debounce }

namespace AnswersAtOnce
variable {s t : State}

theorem busy (h : AnswersAtOnce s t) : t.busy = none := by rw [h.frame]
theorem address (h : AnswersAtOnce s t) : t.address = s.address := by rw [h.frame]
theorem interrupted (h : AnswersAtOnce s t) : t.interrupted = s.interrupted := by rw [h.frame]
theorem regs (h : AnswersAtOnce s t) : t.regs = s.regs := by rw [h.frame]

theorem role (h : AnswersAtOnce s t) : t.role = s.role := by
  funext c
  rw [State.role, h.chan]
  rfl

end AnswersAtOnce

/-- Answering with the configuration of one channel changed, or with none. -/
theorem answersAtOnce_setChan (s : State) (c : ChannelIx) (dbv : Bool) (debounce : Millis)
    (d : Mask12) :
    AnswersAtOnce s
      ((s.setChan c { s.chan c with dbv := dbv, debounce := debounce }).respond d) := by
  refine ⟨rfl, fun j => ?_⟩
  rw [chan_congr (respond_x _ d), chan_setChan]
  split
  · next e => rw [e]
  · rfl

theorem answersAtOnce_reject (s : State) (c : Status) : AnswersAtOnce s (s.reject c) :=
  ⟨rfl, fun _ => rfl⟩

/-- The micro-steps of AGG are plain (42_touch_detection.md R140). -/
theorem aggOps_plain (s : State) : ∀ op ∈ aggOps s, op.plain = true := by
  unfold aggOps
  split <;> simp [MicroOp.plain]

/-- AGG and the judgement of a touch are a query (42_touch_detection.md R145). -/
theorem aggOps_judgeTouch_mem (s : State) (c : ChannelIx) :
    aggOps s ++ [.judgeTouch c] ∈ queryStages c := by
  unfold aggOps
  split <;> simp [queryStages]

/-- A command answers in S0, or is accepted with a programme; only a TCHCH has a touch to judge,
that of its own channel. -/
theorem exec_outcome {i : Instr} {s t : State} (h : exec i s = .next t) :
    AnswersAtOnce s t ∨
      ∃ ops, t = s.start ops ∧ Programme s s.now ops ∧
        ∀ c, MicroOp.judgeTouch c ∈ ops → i = .tchch (channelOperand c) := by
  have plain (ops : List MicroOp) (hp : ∀ op ∈ ops, op.plain = true) :
      Programme s s.now ops ∧
        ∀ c, MicroOp.judgeTouch c ∈ ops → i = .tchch (channelOperand c) :=
    ⟨.plain hp, fun c hc => by cases hp _ hc⟩
  rcases exec_cases i s with ⟨c, e⟩ | ⟨d, e⟩ | ⟨en, -, e⟩ | ⟨v, -, e⟩ | ⟨c, v, -, e⟩ | ⟨c, -, e⟩ |
    ⟨-, e⟩ | ⟨c, rfl, ⟨-, gate⟩, e⟩ | ⟨c, r, -, ha, e⟩ | ⟨c, up, -, -, e⟩ | ⟨c, en, -, -, e⟩ |
    ⟨c, -, role, e⟩ <;> cases e.symm.trans h
  · exact .inl (answersAtOnce_reject s c)
  · exact .inl ⟨rfl, fun _ => rfl⟩
  · exact .inl ⟨rfl, fun _ => rfl⟩
  · exact .inl ⟨rfl, fun _ => rfl⟩
  · exact .inl (answersAtOnce_setChan s c true v _)
  · exact .inl (answersAtOnce_setChan s c false _ _)
  · exact .inr ⟨_, rfl, plain _ (aggOps_plain s)⟩
  · refine .inr ⟨_, rfl, .query (aggOps_judgeTouch_mem s c) gate, fun j hj => ?_⟩
    rcases List.mem_append.mp hj with hj | hj
    · cases aggOps_plain s _ hj
    · cases List.mem_singleton.mp hj; rfl
  · exact .inr ⟨_, rfl, .settype ha, by simp [settypeOps]⟩
  · exact .inr ⟨_, rfl, plain _ (by simp [rmwOps, MicroOp.plain])⟩
  · exact .inr ⟨_, rfl, plain _ (by simp [rmwOps, MicroOp.plain])⟩
  · exact .inr ⟨_, rfl, .level (by simp [levelStages]) role, by simp⟩

end Sys2Proof.Machine
end

/-! # Every step keeps the invariant -/

section
namespace Sys2Proof.Machine

/-- The part of the invariant that does not speak of the sequencer. -/
def State.Fit (s : State) : Prop :=
  Contiguous s.role ∧ LowSensors s.role ∧ s.address = Config.busAddr ∧ Memory.wf s.regs

theorem fit_congr {s u : State} (hr : u.role = s.role) (ha : u.address = s.address)
    (hw : Memory.wf s.regs → Memory.wf u.regs) (h : s.Fit) : u.Fit := by
  obtain ⟨cont, low, address, wf⟩ := h
  exact ⟨hr ▸ cont, hr ▸ low, ha.trans address, hw wf⟩

theorem State.Fit.env {s u : State} (hu : EnvMoves s u) (h : s.Fit) : u.Fit :=
  fit_congr hu.role hu.address hu.wf h

/-- A block just reset has every channel a SENSOR, and its address (10_state.md R45). -/
theorem fit_resetBlock {s : State} (h : s.Fit) : s.resetBlock.Fit := by
  have role := role_of_reset (chan_resetBlock s)
  obtain ⟨-, -, -, wf⟩ := h
  exact ⟨role ▸ fun _ _ _ _ => rfl, role ▸ fun _ _ => rfl, rfl, wf⟩

/-- Replacing a record by one of the same role leaves the role table alone. -/
theorem role_setChan_same {s : State} {c : ChannelIx} {v : Channel} (h : v.role = s.role c) :
    (s.setChan c v).role = s.role := by
  funext j
  rw [State.role, chan_setChan]
  split
  · next e => rw [e, h]
  · rfl

@[simp] theorem judgeChannel_role (ch : Channel) (b : Bool) (t : Time) :
    (judgeChannel ch b t).role = ch.role := by
  unfold judgeChannel
  cases b <;> cases ch.touched <;> rfl

/-- Only S1 of SETTYPE changes the role table (10_state.md R21). -/
theorem opEffect_role (s : State) (f : InFlight) {op : MicroOp}
    (h : ∀ c r, op ≠ .assignRole c r) : (opEffect s f op).role = s.role := by
  cases op with
  | assignRole c r => exact absurd rfl (h c r)
  | clearOutputs => exact role_clearLevels s
  | judgeTouch c => exact role_setChan_same (judgeChannel_role _ _ _)
  | cacheLevel c => exact role_setChan_same rfl
  | _ => rfl

/-- An accepted SETTYPE leaves a contiguous table with channels 0 to 3 SENSOR
(40_channel_role_packer.md R102, R103). -/
theorem fit_setRole {s : State} {c : ChannelIx} {r : Role} (ha : settypeAccepted s c r)
    (h : s.Fit) : (s.setRole c r).Fit := by
  obtain ⟨-, low, address, wf⟩ := h
  obtain ⟨sensorOnly, cont⟩ := ha
  have role := role_setRole s c r
  refine ⟨role ▸ cont, fun i hi => ?_, address, wf⟩
  rw [role, roleUpdate]
  split
  · next e => exact sensorOnly (e ▸ hi)
  · exact low i hi

theorem Programme.fit {s : State} {t : Time} {op : MicroOp} {rest : List MicroOp}
    (hp : Programme s t (op :: rest)) (f : InFlight) (h : s.Fit) : (opEffect s f op).Fit := by
  by_cases ha : ∃ c r, op = .assignRole c r
  · obtain ⟨c, r, rfl⟩ := ha
    exact fit_setRole hp.assigns.1 h
  · refine fit_congr (opEffect_role s f fun c r e => ha ⟨c, r, e⟩) ?_ ?_ h <;> rw [opEffect_frame]
    exact id

theorem OpOutcome.fit {u m : State} {f : InFlight} {op : MicroOp} {rest : List MicroOp}
    (hp : Programme u f.t (op :: rest)) (h : OpOutcome u f op rest m) (hu : u.Fit) : m.Fit := by
  cases h with
  | finished d => exact fit_congr (s := opEffect u f op) rfl rfl id (hp.fit f hu)
  | failed => exact hu
  | waiting r _ => exact hu

theorem microStep_fit {s : State} {f : InFlight} {op : MicroOp} {rest : List MicroOp}
    (hs : s.Sound) (hb : s.busy = some f) (ht : f.todo = op :: rest) (h : s.Fit) :
    (microStep s f op rest).Fit := by
  rcases microStep_outcome op rest hb with ⟨-, reset⟩ | ⟨u, hu, out⟩
  · exact (fit_resetBlock h).env reset
  · exact out.fit (ht ▸ (hs f hb).1.congr hu.x hu.debounceDefault) (h.env hu)

theorem inv_of_fit {s : State} (h : s.Fit) (hw : s.WaitsForTransport) : s.Inv := by
  obtain ⟨cont, low, address, wf⟩ := h
  exact ⟨cont, low, address, wf, hw⟩

/-- A run ends in the invariant: at a response or after `rst` idle, at a request without an answer
waiting. -/
theorem run_inv {s : State} (hf : s.Fit) (hs : s.Sound) : s.run.Inv := by
  refine run_induction (P := fun u => u.Fit ∧ u.Sound) ?step ?done ?idle ?waiting ⟨hf, hs⟩
  case step =>
    exact fun u f op rest h hb _ ht => ⟨microStep_fit h.2 hb ht h.1, microStep_sound h.2 hb ht⟩
  case done => exact fun u f h _ _ _ => inv_of_fit h.1 fun g hg => by cases hg
  case idle => exact fun u h hb => inv_of_fit h.1 (sound_waits h.2 (by simp [hb]))
  case waiting => exact fun u f r h hb ho => inv_of_fit h.1 (sound_waits h.2 (by simp [hb, ho]))

theorem applyEvent_inv {s : State} (h : s.Inv) (e : Event) : (s.applyEvent e).Inv := by
  obtain ⟨cont, low, address, wf, waits⟩ := h
  have fit : s.Fit := ⟨cont, low, address, wf⟩
  rcases applyEvent_cases s e with hu | ⟨-, reset⟩
  · refine inv_of_fit (fit.env hu) (sound_waits ((waits_sound waits).env hu) fun f hb => ?_)
    obtain ⟨⟨r, _, _, ho, _⟩, _⟩ := waits f (hu.busy ▸ hb)
    simp [ho]
  · exact inv_of_fit ((fit_resetBlock fit).env reset) fun f hb => by cases reset.busy.symm.trans hb

/-- Settles O19, by what the step takes: the environment moves the chip and the latch only, and the
programme of a command in progress is kept from one micro-step to the next. -/
theorem stepKeepsInvariant : Obligations.StepKeepsInvariant := by
  intro s t h hstep
  have inv := h
  obtain ⟨cont, low, address, wf, waits⟩ := h
  have fit : s.Fit := ⟨cont, low, address, wf⟩
  cases step_moves hstep with
  | settled rest _ => exact inv
  | event e rest _ => exact applyEvent_inv (s := { s with inputs := rest }) inv e
  | run f hb ho => exact run_inv fit (waits_sound waits)
  | answer f r op ops a rest hb ho ht _ =>
    obtain ⟨u, hu, out⟩ := answerOp_outcome { s with inputs := rest } f op ops r a
    have prog : Programme u f.t f.todo :=
      (waits_sound waits f hb).1.congr (s := s) hu.env.x hu.env.debounceDefault
    exact run_inv (out.fit (ht ▸ prog) (fit.env hu.env)) (out.sound ht prog)
  | command w i rest t hb _ _ hexec =>
    rcases exec_outcome hexec with once | ⟨ops, rfl, prog, -⟩
    · exact inv_of_fit (fit_congr once.role once.address (by rw [once.regs]; exact id) fit)
        fun f hf => by cases once.busy.symm.trans hf
    · exact run_inv fit (sound_accept prog)
  | illegal w rest _ _ => exact inv_of_fit fit fun f hf => by cases hf

end Sys2Proof.Machine
end

/-! # The interrupt latch -/

section
namespace Sys2Proof.Machine

/-- No FIREIRQ is in the script. -/
def State.NoFireInside (s : State) : Prop := ∀ slot ∈ s.script, Event.fireIrq ∉ slot.events

theorem applyEvent_latch {s : State} {e : Event} (he : e ≠ .fireIrq) (h : s.interrupted = false) :
    (s.applyEvent e).interrupted = false := by
  cases e with
  | fireIrq => exact absurd rfl he
  | rst b => show (s.rst b).interrupted = false; rw [rst_frame]; rfl
  | busWrite reg v => show (s.memWrite8 reg v).interrupted = false; rw [memWrite8_frame]; exact h
  | chipByte reg v => exact h
  | chipReset => exact h
  | setNow v => exact h

theorem applyEvents_latch {s : State} {es : List Event} (he : Event.fireIrq ∉ es)
    (h : s.interrupted = false) : (s.applyEvents es).interrupted = false := by
  induction es generalizing s with
  | nil => exact h
  | cons e es ih =>
    obtain ⟨first, later⟩ := not_or.mp (List.mem_cons.not.mp he)
    exact ih later (applyEvent_latch (Ne.symm first) h)

/-- A micro-step only ever clears the latch (42_touch_detection.md R140). -/
theorem opEffect_latch {s : State} (f : InFlight) (op : MicroOp) (h : s.interrupted = false) :
    (opEffect s f op).interrupted = false := by
  cases op with
  | takeStatus => rfl
  | takeLatch => rfl
  | _ => exact h

theorem OpOutcome.latch {u m : State} {f : InFlight} {op : MicroOp} {rest : List MicroOp}
    (h : OpOutcome u f op rest m) (hu : u.interrupted = false) : m.interrupted = false := by
  cases h with
  | finished d => exact opEffect_latch f op hu
  | failed => exact hu
  | waiting r _ => exact hu

theorem microStep_latch {s : State} (f : InFlight) (op : MicroOp) (rest : List MicroOp)
    (hn : s.NoFireInside) (h : s.interrupted = false) :
    (microStep s f op rest).interrupted = false := by
  have arrive : s.arrive.interrupted = false := by
    refine applyEvents_latch ?_ h
    rcases nextSlot_mem s with e | e
    · rw [e]; simp [Slot.quiet]
    · exact hn _ e
  rcases microStep_arrive s f op rest with ⟨e, -⟩ | ⟨u, hu, out⟩
  · rw [e, arrive]
  · exact out.latch (hu.interrupted.trans arrive)

theorem run_latch {s : State} (hn : s.NoFireInside) (h : s.interrupted = false) :
    s.run.interrupted = false := by
  refine run_induction (P := fun u => u.NoFireInside ∧ u.interrupted = false)
    (Q := fun u => u.interrupted = false) ?step ?done ?idle ?waiting ⟨hn, h⟩
  case step =>
    exact fun u f op rest ⟨hn, h⟩ _ _ _ =>
      ⟨microStep_slots hn f op rest, microStep_latch f op rest hn h⟩
  case done => exact fun u f ⟨_, h⟩ _ _ _ => h
  case idle => exact fun u ⟨_, h⟩ _ => h
  case waiting => exact fun u f r ⟨_, h⟩ _ _ => h

/-- Settles O20: an event other than FIREIRQ, an answer and a micro-step leave a clear latch
clear. -/
theorem onlyFireirqSetsTheLatch : Obligations.OnlyFireirqSetsTheLatch := by
  intro s t hstep hs ht
  by_contra hfire
  have inside : s.NoFireInside := fun slot hm he => hfire (.inr ⟨slot, hm, he⟩)
  have clear : t.interrupted = false := by
    cases step_moves hstep with
    | settled rest _ => exact hs
    | event e rest taken =>
      refine applyEvent_latch (fun he => hfire (.inl ?_)) hs
      exact he ▸ taken.mem
    | run f _ _ => exact run_latch inside hs
    | answer f r op ops a rest _ _ _ _ =>
      obtain ⟨u, hu, out⟩ := answerOp_outcome { s with inputs := rest } f op ops r a
      refine run_latch ?_ (out.latch (hu.interrupted.trans hs))
      intro slot hm
      rw [out.script, hu.script] at hm
      exact inside slot hm
    | command w i rest t _ _ _ hexec =>
      rcases exec_outcome hexec with once | ⟨ops, rfl, -, -⟩
      · exact once.interrupted.trans hs
      · exact run_latch (s := State.accept { s with inputs := rest } ops) inside hs
    | illegal w rest _ _ => exact hs
  rw [clear] at ht
  cases ht

end Sys2Proof.Machine
end

/-! # Outputs read low -/

section
namespace Sys2Proof.Machine

/-! ## As long as no command ends with BUS_ERROR -/

/-- Every output's cached level is 0 (10_state.md R26). -/
def State.OutputsLow (s : State) : Prop :=
  ∀ c, s.role c = .gpioOut → (s.chan c).gpioOutputHigh = false

theorem State.OutputsLow.congr {s u : State} (hx : u.x = s.x) (h : s.OutputsLow) :
    u.OutputsLow := by
  intro c hc
  rw [chan_congr hx]
  exact h c (role_congr hx ▸ hc)

theorem State.OutputsReadLow.congr {s u : State} (hx : u.x = s.x) (hb : u.busy = s.busy)
    (h : s.OutputsReadLow) : u.OutputsReadLow := by
  rcases h with low | ⟨f, hf, hc⟩
  · exact .inl (State.OutputsLow.congr hx low)
  · exact .inr ⟨f, hb.trans hf, hc⟩

/-- A block just reset has no output. -/
theorem outputsLow_resetBlock (s : State) : s.resetBlock.OutputsLow := by
  intro c _
  rw [chan_resetBlock]
  rfl

/-- Of a busy block with an output that may read 1, S5 of SETTYPE is still to come. -/
theorem outputsReadLow_busy {s : State} {f : InFlight} (hb : s.busy = some f)
    (h : s.OutputsReadLow) :
    s.OutputsLow ∨ .clearOutputs ∈ f.todo := by
  rcases h with low | ⟨g, hg, hc⟩
  · exact .inl low
  · cases hb.symm.trans hg
    exact .inr hc

theorem outputsReadLow_idle {s : State} (hb : s.busy = none) (h : s.OutputsReadLow) :
    s.OutputsLow := by
  rcases h with low | ⟨g, hg, -⟩
  · exact low
  · cases hb.symm.trans hg

@[simp] theorem judgeChannel_level (ch : Channel) (b : Bool) (t : Time) :
    (judgeChannel ch b t).gpioOutputHigh = ch.gpioOutputHigh := by
  unfold judgeChannel
  cases b <;> cases ch.touched <;> rfl

/-- A micro-step keeps the outputs low, but that S1 of SETTYPE has S5 to come; S5 makes them low
(40_channel_role_packer.md R107). Only the level of an input is ever cached. -/
theorem Programme.outputsLow {s : State} {f : InFlight} {t : Time} {op : MicroOp}
    {rest : List MicroOp} (hp : Programme s t (op :: rest))
    (h : s.OutputsLow ∨ .clearOutputs ∈ op :: rest) :
    (opEffect s f op).OutputsLow ∨ .clearOutputs ∈ rest := by
  by_cases later : MicroOp.clearOutputs ∈ rest
  · exact .inr later
  left
  by_cases now : op = .clearOutputs
  · subst now
    intro c _
    simp [opEffect]
  have low : s.OutputsLow := h.resolve_right fun hm =>
    (List.mem_cons.mp hm).elim (fun e => now e.symm) later
  cases op with
  | clearOutputs => exact absurd rfl now
  | assignRole c r =>
    cases hp.assigns.2
    simp at later
  | judgeTouch c =>
    intro j hj
    simp only [opEffect, chan_setChan, State.role] at hj ⊢
    split at hj
    · next e => simpa [e] using low c (by simpa [State.role] using hj)
    · next e => simpa [e] using low j hj
  | cacheLevel c =>
    have input : s.role c = .gpioIn := hp.caches (by simp)
    intro j hj
    simp only [opEffect, chan_setChan, State.role] at hj ⊢
    split at hj
    · next e => cases input.symm.trans hj
    · next e => simpa [e] using low j hj
  | _ => exact low

/-- Since the responses `out`, outputs read low; or the command has ended with BUS_ERROR. -/
def State.LowOrFailed (s : State) (out : List ResponseWord) : Prop :=
  s.OutputsReadLow ∧ s.rspOut = out ∨ s.busy = none ∧ s.rspOut = out ++ [0x7000#16]

theorem OpOutcome.lowOrFailed {u m : State} {f : InFlight} {op : MicroOp} {rest : List MicroOp}
    (h : OpOutcome u f op rest m) (ht : f.todo = op :: rest) (hp : Programme u f.t f.todo)
    (low : u.OutputsLow ∨ .clearOutputs ∈ f.todo) : m.LowOrFailed u.rspOut := by
  cases h with
  | finished d =>
    rw [ht] at hp low
    refine .inl ⟨?_, by rw [finishOp_frame]⟩
    rcases hp.outputsLow (f := f) low with low | later
    · exact .inl (State.OutputsLow.congr (s := opEffect u f op) rfl low)
    · exact .inr ⟨_, rfl, later⟩
  | failed => exact .inr ⟨rfl, rfl⟩
  | waiting r _ =>
    refine .inl ⟨?_, rfl⟩
    rcases low with low | later
    · exact .inl (State.OutputsLow.congr (s := u) rfl low)
    · exact .inr ⟨_, rfl, later⟩

theorem microStep_lowOrFailed {s : State} {f : InFlight} {op : MicroOp} {rest : List MicroOp}
    (hs : s.Sound) (hb : s.busy = some f) (ht : f.todo = op :: rest)
    (low : s.OutputsLow ∨ .clearOutputs ∈ f.todo) :
    (microStep s f op rest).LowOrFailed s.rspOut := by
  rcases microStep_outcome op rest hb with ⟨-, reset⟩ | ⟨u, hu, out⟩
  · exact .inl ⟨.inl ((outputsLow_resetBlock s).congr reset.x), reset.rspOut⟩
  · rw [← hu.rspOut]
    exact out.lowOrFailed ht ((hs f hb).1.congr hu.x hu.debounceDefault)
      (low.imp_left (State.OutputsLow.congr hu.x))

/-- A run that does not send BUS_ERROR keeps the outputs low. -/
theorem run_outputsReadLow {s : State} {out : List ResponseWord} (hs : s.Sound)
    (h : s.LowOrFailed out) (hr : s.run.rspOut ≠ out ++ [0x7000#16]) : s.run.OutputsReadLow := by
  refine run_induction (P := fun u => u.Sound ∧ u.LowOrFailed out)
    (Q := fun u => u.rspOut ≠ out ++ [0x7000#16] → u.OutputsReadLow) ?step ?done ?idle ?waiting
    ⟨hs, h⟩ hr
  case step =>
    rintro u f op rest ⟨hs, ⟨low, rfl⟩ | ⟨idle, -⟩⟩ hb - ht
    · exact ⟨microStep_sound hs hb ht, microStep_lowOrFailed hs hb ht (outputsReadLow_busy hb low)⟩
    · cases hb.symm.trans idle
  case done =>
    rintro u f ⟨-, ⟨low, -⟩ | ⟨idle, -⟩⟩ hb - ht -
    · refine .inl (State.OutputsLow.congr (s := u) rfl ?_)
      simpa [ht] using outputsReadLow_busy hb low
    · cases hb.symm.trans idle
  case idle => exact fun u ⟨_, h⟩ _ hr => (h.resolve_right fun failed => hr failed.2).1
  case waiting => exact fun u f r ⟨_, h⟩ _ _ hr => (h.resolve_right fun failed => hr failed.2).1

theorem AnswersAtOnce.outputsReadLow {s t : State} (h : AnswersAtOnce s t) (low : s.OutputsLow) :
    t.OutputsReadLow := by
  refine .inl fun c hc => ?_
  rw [h.chan]
  exact low c (h.role ▸ hc)

theorem applyEvent_outputsReadLow {s : State} (e : Event) (h : s.OutputsReadLow) :
    (s.applyEvent e).OutputsReadLow := by
  rcases applyEvent_cases s e with hu | ⟨-, reset⟩
  · exact h.congr hu.x hu.busy
  · exact .inl ((outputsLow_resetBlock s).congr reset.x)

/-- The sentence of 10_state.md R26 and 41_gpio_bit_ops.md R126, of a step without BUS_ERROR. -/
theorem step_outputsReadLow {s t : State} (waits : s.WaitsForTransport) (low : s.OutputsReadLow)
    (hstep : step s = .next t) (hr : t.rspOut ≠ s.rspOut ++ [0x7000#16]) : t.OutputsReadLow := by
  have sound := waits_sound waits
  cases step_moves hstep with
  | settled rest _ => exact low.congr rfl rfl
  | event e rest _ => exact applyEvent_outputsReadLow (s := { s with inputs := rest }) e low
  | run f _ _ => exact run_outputsReadLow sound (.inl ⟨low, rfl⟩) hr
  | answer f r op ops a rest hb _ ht _ =>
    obtain ⟨u, hu, out⟩ := answerOp_outcome { s with inputs := rest } f op ops r a
    have prog : Programme u f.t f.todo :=
      (sound f hb).1.congr (s := s) hu.env.x hu.env.debounceDefault
    have low' := (outputsReadLow_busy hb low).imp_left (State.OutputsLow.congr (s := s) hu.env.x)
    have rsp : u.rspOut = s.rspOut := hu.env.rspOut
    exact run_outputsReadLow (out.sound ht prog) (rsp ▸ out.lowOrFailed ht prog low') hr
  | command w i rest t hb _ _ hexec =>
    rcases exec_outcome hexec with once | ⟨ops, rfl, prog, -⟩
    · exact once.outputsReadLow (outputsReadLow_idle hb low)
    · exact run_outputsReadLow (sound_accept prog)
        (.inl ⟨.inl (State.OutputsLow.congr (s := s) rfl (outputsReadLow_idle hb low)), rfl⟩) hr
  | illegal w rest hb _ =>
    exact .inl (State.OutputsLow.congr (s := s) rfl (outputsReadLow_idle hb low))

/-! ## After a BUS_ERROR -/

theorem exec_settype_accepted {s : State} {c : ChannelIx} {r : Role} (h : settypeAccepted s c r) :
    exec (.settype (channelOperand c) r.code) s = .next (s.start (settypeOps c r)) := by
  obtain ⟨sensorOnly, layout⟩ := h
  have h1 : ¬ (c.val < 4 ∧ r ≠ .sensor) := fun h => h.2 (sensorOnly h.1)
  have h2 : ¬ layoutOk s.role c r = false := by simpa [layoutOk] using layout
  simp only [exec, execSettype, withChannel_operand, assignType, roleOf_code, if_neg h1, if_neg h2]

/-- A micro-step whose request is answered with the error bit, with nothing before it. -/
theorem microStep_failed {s : State} {f g : InFlight} {op : MicroOp} {rest : List MicroOp}
    {r : Request} {landed : Bool} (hb : s.busy = some g)
    (hs : s.nextSlot = ⟨[], some (.error landed)⟩) (hr : opRequest s f op = some r) :
    microStep s f op rest =
      ((s.dropSlot.logRequest r).performFailed r landed).reject .busError := by
  have arrive : s.dropSlot.applyEvents s.nextSlot.events = s.dropSlot := by rw [hs]; rfl
  rw [microStep_answered (g := g) (r := r) (a := .error landed) (by rw [arrive]; exact hb)
    (by rw [arrive, ← hr]; exact opRequest_congr rfl rfl) (by rw [hs]), arrive, answerOp_error]

/-- A SETTYPE whose first write fails has assigned the role, and nothing else of the records
(40_channel_role_packer.md R110). -/
theorem settype_firstWriteFails {s : State} (c : ChannelIx) (r : Role) (landed : Bool)
    (hs : s.script = [Slot.quiet, ⟨[], some (.error landed)⟩]) :
    (s.start (settypeOps c r)).busy = none ∧
      (s.start (settypeOps c r)).x = (s.setRole c r).x := by
  have quiet : (s.accept (settypeOps c r)).QuietFor 1 := by simp [State.QuietFor, hs]
  have run : s.start (settypeOps c r) = runMicro 6 (s.accept (settypeOps c r)) := rfl
  rw [run, runMicro_step rfl rfl rfl, microStep_quiet rfl quiet]
  simp only [opRequest]
  rw [runMicro_step rfl rfl rfl,
    microStep_failed (landed := landed) rfl (by simp [State.nextSlot, finishOp_frame, hs]) rfl,
    runMicro_idle rfl, reject_x, performFailed_frame]
  exact ⟨rfl, rfl⟩

/-- GPIOST of an output answers its cached level (41_gpio_bit_ops.md R126). -/
theorem exec_gpiost_output {s : State} {c : ChannelIx} (h : s.role c = .gpioOut) :
    exec (.gpiost (channelOperand c)) s = .next (s.respond (bit12 (s.chan c).gpioOutputHigh)) := by
  simp [exec, execGpiost, statusChannel, h]

/-- Settles O36: step by step the outputs stay low, and a SETTYPE cut by BUS_ERROR leaves an output
with the level it had as an input. -/
theorem outputsReadLowUntilBusError : Obligations.OutputsReadLowUntilBusError := by
  refine ⟨fun s t => step_outputsReadLow, fun s c _ high accepted hs => ?_⟩
  obtain ⟨idle, hx⟩ := settype_firstWriteFails c .gpioOut false hs
  refine ⟨_, exec_settype_accepted accepted, ?_⟩
  generalize s.start (settypeOps c .gpioOut) = t at idle hx ⊢
  have chan : t.chan c = { s.chan c with role := .gpioOut } := by
    rw [chan_congr hx, chan_setRole, roleUpdate, if_pos rfl]
  have role : t.role c = .gpioOut := by rw [State.role, chan]
  refine ⟨role, ?_⟩
  rw [exec_gpiost_output role, chan, high]
  simp only [State.respond, State.send, ← idle]
  rfl

end Sys2Proof.Machine
end

/-! # A channel's latch and timestamp -/

section
namespace Sys2Proof.Machine

/-- The touch-state latch and the timestamp of a channel (10_state.md R23, R25). -/
def Channel.touchState (ch : Channel) : Latch × Time := (ch.touched, ch.lastTouchTimestamp)

/-- Only a TCHCH of its own moves a channel's latch and timestamp: no other micro-step does
(10_state.md R23, R25). -/
theorem opEffect_touchState (s : State) (f : InFlight) {op : MicroOp} {c : ChannelIx}
    (h : op ≠ .judgeTouch c) :
    ((opEffect s f op).chan c).touchState = (s.chan c).touchState := by
  cases op with
  | assignRole j r => simp [opEffect, chan_setRole, Channel.touchState]
  | clearOutputs => simp [opEffect, Channel.touchState]
  | judgeTouch j =>
    have other : c ≠ j := fun e => h (e ▸ rfl)
    simp [opEffect, chan_setChan, other]
  | cacheLevel j =>
    simp only [opEffect, chan_setChan]
    split
    · next e => rw [e]; rfl
    · rfl
  | _ => rfl

theorem noRstInside_microStep {s : State} (h : s.NoRstInside) (f : InFlight) (op : MicroOp)
    (rest : List MicroOp) : (microStep s f op rest).NoRstInside :=
  microStep_slots (p := fun slot => ∀ b, Event.rst b ∉ slot.events) h f op rest

/-! ## Commands that have no touch of the channel to judge -/

/-- The channel's latch and timestamp are `v`, and no command in progress will judge its touch. -/
def State.TouchKept (s : State) (c : ChannelIx) (v : Latch × Time) : Prop :=
  (s.chan c).touchState = v ∧ ∀ f, s.busy = some f → .judgeTouch c ∉ f.todo

theorem OpOutcome.touchKept {u m : State} {f : InFlight} {op : MicroOp} {rest : List MicroOp}
    {c : ChannelIx} (h : OpOutcome u f op rest m) (ht : f.todo = op :: rest)
    (hc : .judgeTouch c ∉ f.todo) : m.TouchKept c (u.chan c).touchState := by
  cases h with
  | finished d =>
    rw [ht] at hc
    obtain ⟨now, later⟩ := not_or.mp (List.mem_cons.not.mp hc)
    exact ⟨opEffect_touchState u f (Ne.symm now), fun g hg => by cases hg; exact later⟩
  | failed => exact ⟨rfl, fun g hg => by cases hg⟩
  | waiting r _ => exact ⟨rfl, fun g hg => by cases hg; exact hc⟩

theorem run_touchKept {s : State} {c : ChannelIx} {v : Latch × Time} (hn : s.NoRstInside)
    (h : s.TouchKept c v) : (s.run.chan c).touchState = v := by
  refine run_induction (P := fun u => u.NoRstInside ∧ u.TouchKept c v)
    (Q := fun u => (u.chan c).touchState = v) ?step ?done ?idle ?waiting ⟨hn, h⟩
  case step =>
    rintro u f op rest ⟨hn, rfl, hc⟩ hb - ht
    refine ⟨noRstInside_microStep hn f op rest, ?_⟩
    rcases microStep_outcome op rest hb with ⟨rst, -⟩ | ⟨w, hw, out⟩
    · exact absurd hn rst
    · rw [← hw.chan]
      exact out.touchKept ht (hc f hb)
  case done => exact fun u f ⟨_, h, _⟩ _ _ _ => h
  case idle => exact fun u ⟨_, h, _⟩ _ => h
  case waiting => exact fun u f r ⟨_, h, _⟩ _ _ => h

theorem start_touchKept {s : State} {ops : List MicroOp} {c : ChannelIx} (hn : s.NoRstInside)
    (hc : .judgeTouch c ∉ ops) : ((s.start ops).chan c).touchState = (s.chan c).touchState :=
  run_touchKept (s := s.accept ops) hn ⟨rfl, fun f hf => by cases hf; exact hc⟩

/-! ## A query of the channel -/

/-- A query of channel `c`, whose record was `ch`, is under way with the sample `t`, and the touch
is still to judge; or it has been judged. -/
def State.Queried (s : State) (c : ChannelIx) (ch : Channel) (t : Time) : Prop :=
  (s.chan c = ch ∧ ∀ f, s.busy = some f → f.t = t ∧ f.todo ∈ queryStages c) ∨
    (∃ b, s.chan c = judgeChannel ch b t) ∧ ∀ f, s.busy = some f → f.todo = []

theorem OpOutcome.queried {u m : State} {f : InFlight} {op : MicroOp} {rest : List MicroOp}
    {c : ChannelIx} (h : OpOutcome u f op rest m) (ht : f.todo = op :: rest)
    (hq : f.todo ∈ queryStages c) : m.Queried c (u.chan c) f.t := by
  cases h with
  | finished d =>
    rcases queryStages_cons (ht ▸ hq) with ⟨rfl, rfl⟩ | ⟨later, hx⟩
    · refine .inr ⟨⟨f.data.getLsbD c.val, ?_⟩, fun g hg => by cases hg; rfl⟩
      exact chan_setChan_self u c _
    · refine .inl ⟨chan_congr (hx u f) c, fun g hg => ?_⟩
      cases hg
      exact ⟨opSequencer_t u f d op, later⟩
  | failed => exact .inl ⟨rfl, fun g hg => by cases hg⟩
  | waiting r _ => exact .inl ⟨rfl, fun g hg => by cases hg; exact ⟨rfl, hq⟩⟩

/-- A query ends with the record as it was, or judged once with the sample made in S0. -/
theorem run_queried {s : State} {c : ChannelIx} {ch : Channel} {t : Time} (hn : s.NoRstInside)
    (h : s.Queried c ch t) : s.run.chan c = ch ∨ ∃ b, s.run.chan c = judgeChannel ch b t := by
  refine run_induction (P := fun u => u.NoRstInside ∧ u.Queried c ch t)
    (Q := fun u => u.chan c = ch ∨ ∃ b, u.chan c = judgeChannel ch b t) ?step ?done ?idle ?waiting
    ⟨hn, h⟩
  case step =>
    rintro u f op rest ⟨hn, ⟨rfl, hq⟩ | ⟨-, hq⟩⟩ hb - ht
    · refine ⟨noRstInside_microStep hn f op rest, ?_⟩
      obtain ⟨rfl, stage⟩ := hq f hb
      rcases microStep_outcome op rest hb with ⟨rst, -⟩ | ⟨w, hw, out⟩
      · exact absurd hn rst
      · rw [← hw.chan]
        exact out.queried ht stage
    · cases ht.symm.trans (hq f hb)
  case done => exact fun u f ⟨_, h⟩ _ _ _ => h.imp And.left And.left
  case idle => exact fun u ⟨_, h⟩ _ => h.imp And.left And.left
  case waiting => exact fun u f r ⟨_, h⟩ _ _ => h.imp And.left And.left

theorem start_queried {s : State} {ops : List MicroOp} {c : ChannelIx} (hn : s.NoRstInside)
    (hq : ops ∈ queryStages c) :
    (s.start ops).chan c = s.chan c ∨ ∃ b, (s.start ops).chan c = judgeChannel (s.chan c) b s.now :=
  run_queried (s := s.accept ops) hn (.inl ⟨rfl, fun f hf => by cases hf; exact ⟨rfl, hq⟩⟩)

/-! ## What a move of the latch or of the timestamp says -/

/-- The timestamp moves only from IDLE to TOUCHED, to the sample (42_touch_detection.md R144). -/
theorem judgeChannel_timestamp {ch : Channel} {b : Bool} {t : Time}
    (h : (judgeChannel ch b t).lastTouchTimestamp ≠ ch.lastTouchTimestamp) :
    ch.touched = .idle ∧ (judgeChannel ch b t).touched = .touched ∧
      (judgeChannel ch b t).lastTouchTimestamp = t := by
  unfold judgeChannel at h ⊢
  cases b with
  | false => exact absurd rfl h
  | true =>
    cases ht : ch.touched with
    | touched => simp [ht] at h
    | idle => exact ⟨rfl, rfl, rfl⟩

/-- The last clause of O22, of a channel whose record `ch` has become that of `u`. -/
theorem timestamp_of_judged {s u : State} {c : ChannelIx} {t : Time} (gate : GateOpen s c t)
    (h : ∃ b, u.chan c = judgeChannel (s.chan c) b t)
    (moved : (u.chan c).lastTouchTimestamp ≠ (s.chan c).lastTouchTimestamp) :
    (s.chan c).touched = .idle ∧ (u.chan c).touched = .touched ∧
      (u.chan c).lastTouchTimestamp = t ∧ s.elapsed c t = true := by
  obtain ⟨b, hb⟩ := h
  rw [hb] at moved ⊢
  obtain ⟨idle, touched, sample⟩ := judgeChannel_timestamp moved
  refine ⟨idle, touched, sample, gate.resolve_left fun h => ?_⟩
  rw [idle] at h
  cases h

/-- A late answer that carries the error bit leaves the records alone. -/
theorem answerOp_error_run_chan (s : State) (f : InFlight) (op : MicroOp) (rest : List MicroOp)
    (r : Request) (landed : Bool) (c : ChannelIx) :
    (answerOp s f op rest r (.error landed)).run.chan c = s.chan c := by
  rw [answerOp_error]
  exact (performFailed_chipMoves s r landed).env.chan c

/-- Settles O22: a step that has no touch of the channel to judge leaves its latch and timestamp
alone; the one that has judges it once, with the sample of S0 and the gate open. -/
theorem onlyQueriesMoveTheLatch : Obligations.OnlyQueriesMoveTheLatch := by
  intro s t c waits hn noRst hstep hmoved
  have moved : (t.chan c).touchState ≠ (s.chan c).touchState := by
    rwa [Ne, Channel.touchState, Channel.touchState, Prod.mk.injEq, not_and_or]
  have sound := waits_sound waits
  cases step_moves hstep with
  | settled rest _ => exact absurd rfl moved
  | event e rest taken =>
    rcases applyEvent_cases { s with inputs := rest } e with hu | ⟨⟨b, rfl⟩, -⟩
    · exact absurd (congrArg Channel.touchState (hu.chan c)) moved
    · exact absurd ⟨b, rest, taken⟩ noRst
  | run f hb ho =>
    obtain ⟨⟨r, _, _, hr, -⟩, -⟩ := waits f hb
    cases ho.symm.trans hr
  | answer f r op ops a rest hb _ ht taken =>
    obtain ⟨u, hu, out⟩ := answerOp_outcome { s with inputs := rest } f op ops r a
    have inside : (answerOp { s with inputs := rest } f op ops r a).NoRstInside := by
      rw [State.NoRstInside, out.script, hu.script]
      exact hn
    have chan : u.chan c = s.chan c := hu.env.chan c
    by_cases hc : .judgeTouch c ∈ f.todo
    · obtain ⟨-, -, query, -⟩ := waits f hb
      obtain ⟨todo, gate⟩ := query c hc
      obtain ⟨stage, -⟩ := (sound f hb).1.judges hc
      cases a with
      | error l =>
        exact absurd (congrArg Channel.touchState (answerOp_error_run_chan _ f op ops r l c)) moved
      | ok =>
        refine ⟨f.t, .inr ⟨f, rest, hb, rfl, todo, taken⟩, timestamp_of_judged gate ?_⟩
        refine (run_queried inside (chan ▸ out.queried ht stage)).resolve_left fun kept => ?_
        exact moved (congrArg Channel.touchState kept)
    · exact absurd (run_touchKept inside (chan ▸ out.touchKept ht hc)) moved
  | command w i rest t hb hi hd hexec =>
    rcases exec_outcome hexec with once | ⟨ops, rfl, prog, query⟩
    · refine absurd ?_ moved
      rw [once.chan]
      rfl
    · by_cases hc : .judgeTouch c ∈ ops
      · obtain ⟨stage, gate⟩ := prog.judges hc
        refine ⟨s.now, .inl ⟨hb, rfl, w, rest, hi, query c hc ▸ hd⟩, timestamp_of_judged gate ?_⟩
        refine (start_queried (s := { s with inputs := rest }) hn stage).resolve_left fun kept => ?_
        exact moved (congrArg Channel.touchState kept)
      · exact absurd (start_touchKept (s := { s with inputs := rest }) hn hc) moved
  | illegal w rest _ _ => exact absurd rfl moved

end Sys2Proof.Machine
end

/-! # The sample of `now` -/

section
namespace Sys2Proof.Machine

/-- A TCHCH whose gate passes is accepted (42_touch_detection.md R145). -/
theorem exec_tchch_passes {s : State} {c : ChannelIx} (h : gatePasses s c) :
    exec (.tchch (channelOperand c)) s = .next (s.start (aggOps s ++ [.judgeTouch c])) := by
  obtain ⟨input, gate⟩ := h
  have notHeld : ¬ ((s.chan c).touched = .idle ∧ s.elapsed c s.now = false) := by
    rintro ⟨idle, shut⟩
    simp [idle, shut] at gate
  simp [exec, execTchch, queryChannel, input, notHeld]

/-- The status read of a query at a slot in which `now` moves: the status is held, the sample stays
what it was (10_state.md R36). -/
theorem microStep_readStatus_setNow {s : State} {v : Time} {hi lo : Byte} {sc : List Slot}
    (f : InFlight) (rest : List MicroOp)
    (hs : s.script = ⟨[.setNow v], some .ok⟩ :: sc) (hlo : Memory.read s.regs 0 = some lo)
    (hhi : Memory.read s.regs 1 = some hi) :
    microStep (s.accept (.readStatus :: rest)) f .readStatus rest =
      State.book { s with now := v, xpOut := s.xpOut ++ [.read16 s.address regTouchStatus] }
        (some { f with held := hi ++ lo, todo := rest, outstanding := none }) sc := by
  have slot : (s.accept (.readStatus :: rest)).nextSlot = ⟨[.setNow v], some .ok⟩ := by
    simp [State.nextSlot, hs]
  have arrive : (s.accept (.readStatus :: rest)).dropSlot.applyEvents [.setNow v] =
      { s.accept (.readStatus :: rest) with script := sc, now := v } := by
    simp [State.dropSlot, hs, State.applyEvents, State.applyEvent]
  rw [microStep, slot, arrive]
  simp only [accept_busy, opRequest, answerOp_ok, State.perform]
  rw [memRead16_listed (lo := lo) (hi := hi) hlo hhi]
  rfl

/-- A query in polling mode with a slot at its status read in which `now` moves, and quiet after
it. -/
theorem start_query_setNow {s : State} {v : Time} {hi lo : Byte} {sc : List Slot} (c : ChannelIx)
    (hs : s.script = ⟨[.setNow v], some .ok⟩ :: sc) (hlo : Memory.read s.regs 0 = some lo)
    (hhi : Memory.read s.regs 1 = some hi) (hq : ∀ slot ∈ sc, slot = Slot.quiet) :
    s.start [.readStatus, .takeStatus, .judgeTouch c] =
      { quietRun { s with now := v, xpOut := s.xpOut ++ [.read16 s.address regTouchStatus] }
          { s.fresh with held := hi ++ lo } [.takeStatus, .judgeTouch c] with
        script := sc.drop 2 } := by
  have run : s.start [.readStatus, .takeStatus, .judgeTouch c] =
      runMicro 4 (s.accept [.readStatus, .takeStatus, .judgeTouch c]) := rfl
  rw [run, runMicro_step rfl rfl rfl, microStep_readStatus_setNow _ _ hs hlo hhi]
  exact runMicro_book [.takeStatus, .judgeTouch c] _ { s.fresh with held := hi ++ lo } sc 0
    fun slot hm => hq slot (List.mem_of_mem_take hm)

/-- The rest of a query after its status read judges the bit read, at the sample of S0. -/
theorem quietRun_judges (s : State) (f : InFlight) (c : ChannelIx) :
    (quietRun s f [.takeStatus, .judgeTouch c]).chan c =
      judgeChannel (s.chan c) (f.held.getLsbD c.val) f.t := by
  have bit : (f.held.setWidth 12).getLsbD c.val = f.held.getLsbD c.val := by simp
  simp only [quietRun, quietOp_takeStatus, quietOp_judgeTouch, bit]
  rw [chan_congr (respond_x _ _), chan_setChan_self]
  rfl

/-- Settles O54: the first micro-step moves `now`, the two that remain are quiet, and the judgement
takes the sample that the sequencer carries since S0. -/
theorem timeIsSampledOnce : Obligations.TimeIsSampledOnce := by
  intro s c v hi lo rest mode input idle elapsed hlo hhi bit hs hrest
  refine ⟨_, exec_tchch_passes ⟨input, .inr elapsed⟩, ?_⟩
  have ops : aggOps s ++ [.judgeTouch c] = [.readStatus, .takeStatus, .judgeTouch c] := by
    simp [aggOps, mode]
  rw [ops, start_query_setNow c hs hlo hhi hrest]
  have judged := quietRun_judges
    { s with now := v, xpOut := s.xpOut ++ [.read16 s.address regTouchStatus] }
    { s.fresh with held := hi ++ lo } c
  have touched : judgeChannel (s.chan c) true s.now =
      { s.chan c with touched := .touched, lastTouchTimestamp := s.now } := by
    simp [judgeChannel, idle]
  rw [bit] at judged
  exact ⟨rfl, congrArg Channel.touched (judged.trans touched),
    congrArg Channel.lastTouchTimestamp (judged.trans touched)⟩

end Sys2Proof.Machine
end

/-! # The steps of a block at rest

A block is at rest when it is idle or waits for the transport (20_memory.md R56). -/

section
namespace Sys2Proof.Machine

/-- What is left after an input is taken are inputs that were there before. -/
theorem takeNonCommand_subset {l rest : List Input} {i : Input}
    (h : takeNonCommand l = some (i, rest)) : rest ⊆ l := by
  induction l generalizing rest with
  | nil => cases h
  | cons a l ih =>
    cases a with
    | command w =>
      obtain ⟨⟨j, rest'⟩, hl, e⟩ := Option.map_eq_some_iff.mp h
      cases e
      exact List.cons_subset_cons _ (ih hl)
    | event e => cases h; exact List.subset_cons_self _ _
    | answer a => cases h; exact List.subset_cons_self _ _

section
variable {s : State} {f : InFlight} {r : Request}

/-- A waiting block to which only commands come stays as it is (10_state.md R41). -/
theorem step_waiting_still (hb : s.busy = some f) (ho : f.outstanding = some r)
    (hi : takeNonCommand s.inputs = none) : step s = .next s := by
  simp [step, nextMove, hb, busyMove, ho, hi]

theorem step_waiting_event {e : Event} {rest : List Input} (hb : s.busy = some f)
    (ho : f.outstanding = some r) (hi : takeNonCommand s.inputs = some (.event e, rest)) :
    step s = .next (({ s with inputs := rest } : State).applyEvent e) := by
  simp [step, nextMove, hb, busyMove, ho, hi, State.absorb]

/-- A block at rest takes the event that comes first. -/
theorem step_event_at_rest {e : Event} {rest : List Input} (hi : s.inputs = .event e :: rest)
    (hw : ∀ f, s.busy = some f → f.outstanding ≠ none) :
    step s = .next (({ s with inputs := rest } : State).applyEvent e) := by
  rcases Option.eq_none_or_eq_some s.busy with hb | ⟨f, hb⟩
  · exact step_event hb hi
  · obtain ⟨r, ho⟩ := Option.ne_none_iff_exists'.mp (hw f hb)
    exact step_waiting_event hb ho (by rw [hi]; rfl)

end

/-- An event other than `rst` keeps the command in progress and sends nothing. -/
theorem applyEvent_keeps_command (s : State) {e : Event} (h : ∀ b, e ≠ .rst b) :
    (s.applyEvent e).busy = s.busy ∧ (s.applyEvent e).rspOut = s.rspOut ∧
      (s.applyEvent e).xpOut = s.xpOut := by
  rw [applyEvent_frame s h]
  exact ⟨rfl, rfl, rfl⟩

/-- Settles O13: the block stays as it is, or takes an event that is no `rst`; what is left to take is
among what there was. -/
theorem silentTransportHangs : Obligations.SilentTransportHangs := by
  intro s t f r hb ho noAnswer noRst hstep
  cases hi : takeNonCommand s.inputs with
  | none =>
    cases (step_waiting_still hb ho hi).symm.trans hstep
    exact ⟨hb, rfl, rfl, noAnswer, noRst⟩
  | some taken =>
    obtain ⟨i, rest⟩ := taken
    obtain ⟨mem, noCommand⟩ := takeNonCommand_mem hi
    have left : rest ⊆ s.inputs := takeNonCommand_subset hi
    cases i with
    | command w => exact absurd rfl (noCommand w)
    | answer a => exact absurd mem (noAnswer a)
    | event e =>
      cases (step_waiting_event hb ho hi).symm.trans hstep
      have notRst : ∀ b, e ≠ .rst b := fun b he => noRst b (he ▸ mem)
      obtain ⟨busy, rsp, xp⟩ := applyEvent_keeps_command { s with inputs := rest } notRst
      rw [applyEvent_inputs]
      exact ⟨busy.trans hb, rsp, xp, fun a ha => noAnswer a (left ha), fun b hr => noRst b (left hr)⟩

end Sys2Proof.Machine
end

/-! # The chip's register space -/

section
namespace Sys2Proof.Machine

/-! ## What a write does to the registers -/

/-- The registers whose writes act on the output latches (20_memory.md R65). -/
def ActsOnLatches (reg : RegNo) : Prop :=
  reg = regGpioSet ∨ reg = regGpioClr ∨ reg = regGpioTog

/-- A write that is no soft reset stores its byte, and then may act on the latches. -/
theorem memWrite8_cases (s : State) {reg : RegNo} {v : Byte}
    (h : ¬ (reg = regSoftReset ∧ v = softResetKey)) :
    s.memWrite8 reg v = s.storeByte reg v ∨
      ActsOnLatches reg ∧ ∃ latch, s.memWrite8 reg v = (s.storeByte reg v).driveLatches latch := by
  simp only [State.memWrite8, if_neg h]
  split_ifs with set clr tog
  · exact .inr ⟨.inl set, _, rfl⟩
  · exact .inr ⟨.inr (.inl clr), _, rfl⟩
  · exact .inr ⟨.inr (.inr tog), _, rfl⟩
  · exact .inl rfl

/-- A register reads after a write as after its store, but for the data register where the write acts
on the latches (20_memory.md R59). -/
theorem read_memWrite8 (s : State) {reg : RegNo} {v : Byte} {a : Nat}
    (h : ¬ (reg = regSoftReset ∧ v = softResetKey))
    (hdat : ¬ (a = regGpioDat.toNat ∧ ActsOnLatches reg)) :
    Memory.read (s.memWrite8 reg v).regs a = Memory.read (s.storeByte reg v).regs a := by
  rcases memWrite8_cases s h with e | ⟨acts, latch, e⟩
  · rw [e]
  · rw [e, driveLatches_regs]
    exact Memory.read_forget_other _ fun ha => hdat ⟨ha, acts⟩

/-- GPIO_SET, GPIO_CLR and GPIO_TOG are not the data register. -/
theorem ActsOnLatches.ne_dat {reg : RegNo} (h : ActsOnLatches reg) :
    reg.toNat ≠ regGpioDat.toNat := by
  rcases h with rfl | rfl | rfl <;> decide

/-- The register written reads after the write as after its store. -/
theorem read_memWrite8_same (s : State) {reg : RegNo} {v : Byte}
    (h : ¬ (reg = regSoftReset ∧ v = softResetKey)) :
    Memory.read (s.memWrite8 reg v).regs reg.toNat =
      Memory.read (s.storeByte reg v).regs reg.toNat :=
  read_memWrite8 s h fun ⟨hdat, acts⟩ => acts.ne_dat hdat

/-- A store that is effective is read back. -/
theorem read_storeByte_effective {s : State} {reg : RegNo} (v : Byte)
    (h : ¬ needsStop reg = true ∨ s.Stopped) :
    Memory.read (s.storeByte reg v).regs reg.toNat = some v := by
  rcases h with free | stopped
  · rw [storeByte_free s v (Bool.eq_false_iff.mpr free)]
    exact Memory.read_write_same _ _ _
  · rw [storeByte_stopped stopped]
    exact Memory.read_write_same _ _ _

/-- Settles O24: a write is a store, but for what acting on the latches does to the data register. -/
theorem writeThenRead : Obligations.WriteThenRead := by
  intro s reg v noReset stopped stop
  have needs : needsStop reg = true ↔ stop := needsStop_iff reg
  refine ⟨fun effective => memRead8_listed ?_, fun ⟨hn, running⟩ => ?_, fun a ha hdat => ?_⟩
  · rw [read_memWrite8_same s noReset]
    exact read_storeByte_effective v (effective.imp_left (mt needs.mp))
  · rw [read_memWrite8_same s noReset, storeByte_running v (needs.mpr hn) running]
    exact Memory.read_forget_same _ _
  · rw [read_memWrite8 s noReset hdat]
    exact storeByte_other s v ha

/-- Settles O23. -/
theorem wordReadIsLittleEndian : Obligations.WordReadIsLittleEndian :=
  fun _ _ _ _ _ hlo hhi => memRead16_listed hlo hhi

/-! ## The output latches -/

@[simp] theorem memWrite8_set_outLatch (s : State) (v : Byte) :
    (s.memWrite8 regGpioSet v).outLatch = s.outLatch ||| v := rfl

@[simp] theorem memWrite8_clr_outLatch (s : State) (v : Byte) :
    (s.memWrite8 regGpioClr v).outLatch = s.outLatch &&& ~~~v := rfl

@[simp] theorem memWrite8_tog_outLatch (s : State) (v : Byte) :
    (s.memWrite8 regGpioTog v).outLatch = s.outLatch ^^^ v := rfl

/-- Settles O25, bit by bit. -/
theorem writeOneToActLatches : Obligations.WriteOneToActLatches := by
  intro s v k
  refine ⟨?set, ?clr, ?tog, fun reg noSet noClr noTog noReset => ?other⟩
  case set =>
    change (s.memWrite8 regGpioSet v).outLatch.getLsbD k.val = _
    rw [memWrite8_set_outLatch, BitVec.getLsbD_or]
  case clr =>
    change (s.memWrite8 regGpioClr v).outLatch.getLsbD k.val = _
    simp
  case tog =>
    change (s.memWrite8 regGpioTog v).outLatch.getLsbD k.val = _
    rw [memWrite8_tog_outLatch, BitVec.getLsbD_xor]
  case other => rw [memWrite8_stores s v noReset noSet noClr noTog, storeByte_outLatch]

/-! ## The chip's own reset -/

/-- The soft reset overrides the store of its key (20_memory.md R68). -/
theorem memWrite8_softReset (s : State) : s.memWrite8 regSoftReset softResetKey = s.resetChip := rfl

/-- After the chip's reset only Config2 is determined (20_memory.md R67). -/
theorem read_resetChip (s : State) (a : Nat) :
    Memory.read s.resetChip.regs a = if a = regConfig2.toNat then some config2Reset else none := rfl

/-- Settles O60: both events are the chip's reset, which does not reach the block. -/
theorem chipResetKeepsTheBlock : Obligations.ChipResetKeepsTheBlock := by
  intro s e rest hi he hw
  have reset (u : State) : u.applyEvent e = u.resetChip := by
    rcases he with rfl | rfl
    · rfl
    · exact memWrite8_softReset u
  refine ⟨_, (step_event_at_rest hi hw).trans (by rw [reset]), rfl, fun a ha => ?_, rfl⟩
  rw [read_resetChip]
  exact if_neg ha

end Sys2Proof.Machine
end

/-! # Command words and the opcode map -/

section
namespace Sys2Proof

/-! ## Fields -/

/-- A word is put together from its three fields, and from no others (30_encoding.md R80). -/
theorem cmdWord_eq_iff {op ch : BitVec 4} {v : BitVec 16} {w : CommandWord} :
    cmdWord op ch v = w ↔ opField w = op ∧ chField w = ch ∧ immField w = v := by
  constructor
  · rintro rfl
    simp
  · rintro ⟨rfl, rfl, rfl⟩
    exact cmdWord_fields w

/-- A field whose `n` reserved bits are zero is its `k` operand bits. -/
theorem append_of_reserved {n k : Nat} {v : BitVec (n + k)} (h : v.extractLsb' k n = 0#n) :
    v = 0#n ++ v.extractLsb' 0 k := by
  rw [← h, BitVec.extractLsb'_append_extractLsb']

/-- The reserved bits of a field are those its mask covers (30_encoding.md R84). -/
theorem reserved_of_masked {n k : Nat} {v : BitVec (n + k)}
    (h : v &&& (BitVec.allOnes n ++ 0#k) = 0#(n + k)) : v.extractLsb' k n = 0#n := by
  have high := congrArg (BitVec.extractLsb' k n) h
  rwa [BitVec.extractLsb'_and, BitVec.extractLsb'_append_eq_left, BitVec.and_allOnes,
    BitVec.extractLsb'_zero] at high

/-! ## The operands `role` and `en` (30_encoding.md R81) -/

theorem role_reserved (role : BitVec 2) :
    (0#14 ++ role : BitVec 16).extractLsb' 2 14 = 0#14 := BitVec.extractLsb'_append_eq_left

theorem role_operand (role : BitVec 2) :
    (0#14 ++ role : BitVec 16).extractLsb' 0 2 = role := BitVec.extractLsb'_append_eq_right

theorem en_reserved (en : Bool) :
    (0#15 ++ BitVec.ofBool en : BitVec 16).extractLsb' 1 15 = 0#15 :=
  BitVec.extractLsb'_append_eq_left

theorem en_operand (en : Bool) : (0#15 ++ BitVec.ofBool en : BitVec 16)[0] = en := by
  cases en <;> rfl

theorem append_en_of_reserved {v : BitVec 16} (h : v.extractLsb' 1 15 = 0#15) :
    v = 0#15 ++ BitVec.ofBool (v.getLsbD 0) := by
  have low : BitVec.ofBool (v.getLsbD 0) = v.extractLsb' 0 1 := by
    ext i hi
    obtain rfl : i = 0 := by omega
    simp
  rw [low]
  exact append_of_reserved h

/-! ## Decoding and encoding -/

/-- Settles O1: each row reads its operands from the fields that `encode` puts them in, and finds
the reserved bits zero. -/
theorem encodedInstructionsDecode : Obligations.EncodedInstructionsDecode := by
  intro i
  cases i with
  | useirq en => simp [encode, decode, rowOf, en_reserved, en_operand]
  | gpioen ch en => simp [encode, decode, rowOf, en_reserved, en_operand]
  | settype ch role => simp [encode, decode, rowOf, role_reserved, role_operand]
  | _ => simp [encode, decode, rowOf]

/-- A row is decoded only with its reserved fields zero (30_encoding.md R85). -/
theorem rowOf_ok {op : BitVec 4} {z : Bool} {i j : Instr} (h : rowOf op z i = .ok j) :
    z = true ∧ i = j := by
  cases z with
  | false => cases h
  | true => cases h; exact ⟨rfl, rfl⟩

/-- Settles O2: in each row the operation is the row's, and every other field is an operand or has
its reserved bits zero. The case `h_n` is the row of operation n; the last one is no row. -/
theorem decodedWordsReencode : Obligations.DecodedWordsReencode := by
  intro w i h
  unfold decode at h
  dsimp only at h
  split at h
  case h_12 => cases h
  all_goals
    rename_i op
    obtain ⟨reserved, rfl⟩ := rowOf_ok h
    simp only [Bool.and_eq_true, decide_eq_true_eq] at reserved
    refine cmdWord_eq_iff.mpr ⟨BitVec.eq_of_toNat_eq op, ?_⟩
  case h_1 => exact reserved
  case h_2 => exact ⟨rfl, reserved⟩
  case h_3 => exact ⟨reserved.1, append_en_of_reserved reserved.2⟩
  case h_4 => exact ⟨rfl, append_of_reserved (n := 14) reserved⟩
  case h_5 => exact ⟨reserved, rfl⟩
  case h_6 => exact ⟨rfl, rfl⟩
  case h_7 => exact ⟨rfl, reserved⟩
  case h_8 => exact ⟨rfl, reserved⟩
  case h_9 => exact ⟨rfl, reserved⟩
  case h_10 => exact ⟨rfl, append_en_of_reserved reserved⟩
  case h_11 => exact ⟨rfl, reserved⟩

/-- Settles O5: each word is the encoding of its instruction. -/
theorem specWordsDecode : Obligations.SpecWordsDecode :=
  ⟨encodedInstructionsDecode .tchall, encodedInstructionsDecode (.tchch 5#4),
    encodedInstructionsDecode (.useirq true), encodedInstructionsDecode (.settype 11#4 2#2),
    encodedInstructionsDecode (.setdbc 4#4 50#16), encodedInstructionsDecode (.gpioen 9#4 true)⟩

/-! ## The opcode map -/

/-- The word of every instruction selects a row with its mnemonic. -/
theorem encode_selects (i : Instr) : Laws.EncodingRow.Statement i := by
  cases i with
  | tchall => exact Laws.EncodingRow.tchall
  | tchch ch => exact Laws.EncodingRow.tchch ch
  | useirq en => exact Laws.EncodingRow.useirq en
  | settype ch role => exact Laws.EncodingRow.settype ch role
  | setdbd v => exact Laws.EncodingRow.setdbd v
  | setdbc ch v => exact Laws.EncodingRow.setdbc ch v
  | clrdbc ch => exact Laws.EncodingRow.clrdbc ch
  | pullup ch => exact Laws.EncodingRow.pullup ch
  | pulldn ch => exact Laws.EncodingRow.pulldn ch
  | gpioen ch en => exact Laws.EncodingRow.gpioen ch en
  | gpiost ch => exact Laws.EncodingRow.gpiost ch

/-- Where a row compares the whole operation field it fixes it; of the other fields it says that
they are 0 where its mask covers them. -/
theorem fields_of_masked {w : CommandWord} {op cm : BitVec 4} {im : BitVec 16}
    (h : w &&& cmdWord (BitVec.allOnes 4) cm im = cmdWord op 0#4 0#16) :
    opField w = op ∧ chField w &&& cm = 0#4 ∧ immField w &&& im = 0#16 := by
  rw [← cmdWord_fields w, cmdWord_and, BitVec.and_allOnes, eq_comm, cmdWord_eq_iff] at h
  simpa [eq_comm] using h

/-- The mask of the commands whose one operand is a channel. -/
theorem cmdWord_of_channelMask {w : CommandWord} {op : BitVec 4}
    (h : w &&& 0xF0FFFF#24 = cmdWord op 0#4 0#16) : cmdWord op (chField w) 0#16 = w := by
  obtain ⟨hop, -, imm⟩ := fields_of_masked (cm := 0#4) (im := BitVec.allOnes 16) h
  rw [BitVec.and_allOnes] at imm
  exact cmdWord_eq_iff.mpr ⟨hop, rfl, imm⟩

/-- A word that selects a row encodes an instruction of that row. -/
theorem selects_encoded {row : OpcodeRow} {w : CommandWord} (hr : row ∈ opcodeTable)
    (h : row.selects w) : ∃ i : Instr, encode i = w ∧ i.mnemonic = row.mnemonic := by
  simp only [opcodeTable, List.mem_cons, List.not_mem_nil, or_false] at hr
  rcases hr with rfl | rfl | rfl | rfl | rfl | rfl | rfl | rfl | rfl | rfl | rfl
  · obtain ⟨op, ch, imm⟩ :=
      fields_of_masked (op := 1#4) (cm := BitVec.allOnes 4) (im := BitVec.allOnes 16) h
    rw [BitVec.and_allOnes] at ch imm
    exact ⟨.tchall, cmdWord_eq_iff.mpr ⟨op, ch, imm⟩, rfl⟩
  · exact ⟨.tchch (chField w), cmdWord_of_channelMask h, rfl⟩
  · obtain ⟨op, ch, imm⟩ := fields_of_masked (op := 3#4) (cm := BitVec.allOnes 4)
      (im := BitVec.allOnes 15 ++ 0#1) h
    rw [BitVec.and_allOnes] at ch
    exact ⟨.useirq ((immField w).getLsbD 0), cmdWord_eq_iff.mpr
      ⟨op, ch, append_en_of_reserved (reserved_of_masked (n := 15) imm)⟩, rfl⟩
  · obtain ⟨op, -, imm⟩ := fields_of_masked (op := 4#4) (cm := 0#4)
      (im := BitVec.allOnes 14 ++ 0#2) h
    exact ⟨.settype (chField w) ((immField w).extractLsb' 0 2), cmdWord_eq_iff.mpr
      ⟨op, rfl, append_of_reserved (reserved_of_masked (n := 14) imm)⟩, rfl⟩
  · obtain ⟨op, ch, -⟩ := fields_of_masked (op := 5#4) (cm := BitVec.allOnes 4) (im := 0#16) h
    rw [BitVec.and_allOnes] at ch
    exact ⟨.setdbd (immField w), cmdWord_eq_iff.mpr ⟨op, ch, rfl⟩, rfl⟩
  · obtain ⟨op, -, -⟩ := fields_of_masked (op := 6#4) (cm := 0#4) (im := 0#16) h
    exact ⟨.setdbc (chField w) (immField w), cmdWord_eq_iff.mpr ⟨op, rfl, rfl⟩, rfl⟩
  · exact ⟨.clrdbc (chField w), cmdWord_of_channelMask h, rfl⟩
  · exact ⟨.pullup (chField w), cmdWord_of_channelMask h, rfl⟩
  · exact ⟨.pulldn (chField w), cmdWord_of_channelMask h, rfl⟩
  · obtain ⟨op, -, imm⟩ := fields_of_masked (op := 0xA#4) (cm := 0#4)
      (im := BitVec.allOnes 15 ++ 0#1) h
    exact ⟨.gpioen (chField w) ((immField w).getLsbD 0), cmdWord_eq_iff.mpr
      ⟨op, rfl, append_en_of_reserved (reserved_of_masked (n := 15) imm)⟩, rfl⟩
  · exact ⟨.gpiost (chField w), cmdWord_of_channelMask h, rfl⟩

/-- Settles O3: a word decodes exactly when it is an encoding, and selects exactly the row whose
instruction it encodes. -/
theorem decoderFollowsOpcodeMap : Obligations.DecoderFollowsOpcodeMap := by
  intro w m
  constructor
  · rintro ⟨i, hd, rfl⟩
    obtain rfl := decodedWordsReencode w i hd
    exact encode_selects i
  · rintro ⟨row, hr, rfl, h⟩
    obtain ⟨i, rfl, hm⟩ := selects_encoded hr h
    exact ⟨i, encodedInstructionsDecode i, hm⟩

/-- No two rows of the opcode map have the same mnemonic. -/
theorem opcodeTable_mnemonic_inj : ∀ row ∈ opcodeTable, ∀ other ∈ opcodeTable,
    other.mnemonic = row.mnemonic → other = row := by
  decide

/-- Settles O4: a word that selects two rows would decode to two instructions. -/
theorem wordSelectsOneRowOrIsIllegal : Obligations.WordSelectsOneRowOrIsIllegal := by
  intro w
  have selects (m : String) := decoderFollowsOpcodeMap w m
  cases hd : decode w with
  | ok i =>
    obtain ⟨row, hr, hm, h⟩ := (selects i.mnemonic).mp ⟨i, hd, rfl⟩
    refine .inl ⟨⟨i, rfl⟩, row, hr, h, fun other ho h' => ?_⟩
    obtain ⟨j, hj, same⟩ := (selects other.mnemonic).mpr ⟨other, ho, rfl, h'⟩
    cases hd.symm.trans hj
    exact opcodeTable_mnemonic_inj row hr other ho (same.symm.trans hm.symm)
  | error e =>
    refine .inr ⟨⟨e, rfl⟩, fun row hr h => ?_⟩
    obtain ⟨i, hi, -⟩ := (selects row.mnemonic).mpr ⟨row, hr, rfl, h⟩
    cases hd.symm.trans hi

end Sys2Proof
end

/-! # Responses -/

section
namespace Sys2Proof.Machine

/-- Settles O7: the word is refused by the decoder, and the response is all that is added. -/
theorem illegalWordIsAnswered : Obligations.IllegalWordIsAnswered := by
  intro s w rest hb hi noRow
  rcases wordSelectsOneRowOrIsIllegal w with ⟨-, row, hr, h, -⟩ | ⟨⟨e, hd⟩, -⟩
  · exact absurd h (noRow row hr)
  · rw [step_illegal hb hi hd, State.reject, State.send, ← hb]
    rfl

/-- A response word as 30_encoding.md R82 and R83 allow it: a status code in use, and no data with a
failure. -/
def LegalResponse (w : ResponseWord) : Prop :=
  (w.extractLsb' 12 4).toNat < 8 ∧ (w.extractLsb' 12 4 ≠ 0#4 → w.extractLsb' 0 12 = 0#12)

theorem legalResponse_ok (d : Mask12) : LegalResponse (0#4 ++ d) := by
  have status : (0#4 ++ d : ResponseWord).extractLsb' 12 4 = 0#4 :=
    BitVec.extractLsb'_append_eq_left
  exact ⟨by simp [status], fun failed => absurd status failed⟩

theorem legalResponse_failure (c : Status) : LegalResponse (statusCode c ++ 0#12) := by
  have status : (statusCode c ++ 0#12 : ResponseWord).extractLsb' 12 4 = statusCode c :=
    BitVec.extractLsb'_append_eq_left
  have code : (statusCode c).toNat < 8 := by cases c <;> decide
  exact ⟨by rwa [status], fun _ => BitVec.extractLsb'_append_eq_right⟩

/-- Since `s` the command has sent one response and is over. -/
def Answered (s t : State) : Prop :=
  ∃ w, t.rspOut = s.rspOut ++ [w] ∧ t.busy = none ∧ LegalResponse w

/-- Since `s` the command has sent nothing: it is in progress, or a `rst` may have cut it. -/
def Unanswered (s t : State) : Prop :=
  t.rspOut = s.rspOut ∧ (t.busy ≠ none ∨ ¬ s.NoRstInside)

theorem answered_respond {s u : State} (h : u.rspOut = s.rspOut) (d : Mask12) :
    Answered s (u.respond d) :=
  ⟨_, h ▸ rfl, rfl, legalResponse_ok d⟩

theorem answered_reject {s u : State} (h : u.rspOut = s.rspOut) (c : Status) :
    Answered s (u.reject c) :=
  ⟨_, h ▸ rfl, rfl, legalResponse_failure c⟩

/-- A micro-step leaves the command in progress, or ends it with BUS_ERROR. -/
theorem OpOutcome.answered {s u m : State} {f : InFlight} {op : MicroOp} {rest : List MicroOp}
    (h : OpOutcome u f op rest m) (hu : u.rspOut = s.rspOut) : Answered s m ∨ Unanswered s m := by
  cases h with
  | finished d => exact .inr ⟨by rw [finishOp_frame]; exact hu, .inl (by simp [finishOp_frame])⟩
  | failed => exact .inl (answered_reject hu .busError)
  | waiting r _ => exact .inr ⟨hu, .inl (by simp)⟩

/-- The micro-steps of an accepted command send one response in all, or none yet, or `rst` cut
them. -/
theorem start_answers (s : State) (ops : List MicroOp) :
    Answered s (s.start ops) ∨ Unanswered s (s.start ops) := by
  refine run_induction (s := s.accept ops)
    (P := fun u => (s.NoRstInside → u.NoRstInside) ∧ (Answered s u ∨ Unanswered s u))
    (Q := fun u => Answered s u ∨ Unanswered s u) ?step ?done ?idle ?waiting
    ⟨id, .inr ⟨rfl, .inl (by simp)⟩⟩
  case step =>
    rintro u f op rest ⟨hn, ⟨w, -, idle, -⟩ | ⟨rsp, -⟩⟩ hb - -
    · cases hb.symm.trans idle
    · refine ⟨fun h => noRstInside_microStep (hn h) f op rest, ?_⟩
      rcases microStep_outcome op rest hb with ⟨rst, reset⟩ | ⟨v, hv, out⟩
      · exact .inr ⟨reset.rspOut.trans rsp, .inr (mt hn rst)⟩
      · exact out.answered (hv.rspOut.trans rsp)
  case done =>
    rintro u f ⟨-, ⟨w, -, idle, -⟩ | ⟨rsp, -⟩⟩ hb - -
    · cases hb.symm.trans idle
    · exact .inl (answered_respond rsp f.data)
  case idle => exact fun u h _ => h.2
  case waiting => exact fun u f r h _ _ => h.2

/-- Settles O9: S0 answers by itself, or starts micro-steps that answer once. -/
theorem oneResponsePerCommand : Obligations.OneResponsePerCommand := by
  intro i s t h
  change Answered s t ∨ Unanswered s t
  rcases exec_cases i s with ⟨c, e⟩ | ⟨d, e⟩ | ⟨en, -, e⟩ | ⟨v, -, e⟩ | ⟨c, v, -, e⟩ | ⟨c, -, e⟩ |
    ⟨-, e⟩ | ⟨c, -, -, e⟩ | ⟨c, r, -, -, e⟩ | ⟨c, up, -, -, e⟩ | ⟨c, en, -, -, e⟩ |
    ⟨c, -, -, e⟩ <;> cases e.symm.trans h
  · exact .inl (answered_reject rfl c)
  iterate 5 exact .inl (answered_respond rfl _)
  all_goals exact start_answers s _

end Sys2Proof.Machine
end

/-! # The role table and the bytes packed from it -/

section
namespace Sys2Proof.Machine

/-! ## The layout check -/

/-- Settles O33: the channel just above the last SENSOR is the one a higher new SENSOR would leave a
hole at, and the last SENSOR is the one a lower new GPIO would stand below. -/
theorem layoutCheckByCount : Obligations.LayoutCheckByCount := by
  intro role c r cont _
  obtain ⟨bound, sensor⟩ := contiguous_count cont
  have update (i : ChannelIx) : roleUpdate role c r i = .sensor ↔
      i = c ∧ r = .sensor ∨ i ≠ c ∧ i.val < sensorCount role := by
    rw [roleUpdate, ← sensor]
    split <;> simp [*]
  rw [layoutOk, decide_eq_true_iff]
  constructor
  · refine fun ok => ⟨fun isSensor => ?_, fun noSensor => ?_⟩ <;> by_contra beyond
    · have hole := ok ⟨sensorCount role, by omega⟩ c (by simpa [Fin.lt_def] using beyond)
        ((update c).mpr (.inl ⟨rfl, isSensor⟩))
      rcases (update _).mp hole with ⟨e, -⟩ | ⟨-, below⟩
      · exact beyond (e ▸ le_rfl)
      · exact lt_irrefl _ below
    · have below := ok c ⟨sensorCount role - 1, by omega⟩ (Fin.lt_def.mpr (by simp; omega))
        ((update _).mpr (.inr ⟨by simp [Fin.ext_iff]; omega, by simp; omega⟩))
      exact noSensor (((update c).mp below).resolve_right fun h => h.1 rfl).2
  · rintro ⟨asSensor, asGpio⟩ i j hij hj
    rw [update] at hj ⊢
    have lt : i.val < j.val := hij
    by_cases isSensor : r = .sensor
    · have := asSensor isSensor
      by_cases e : i = c
      · exact .inl ⟨e, isSensor⟩
      · refine .inr ⟨e, ?_⟩
        rcases hj with ⟨rfl, -⟩ | ⟨-, hj⟩ <;> omega
    · have := asGpio isSensor
      obtain ⟨-, hj⟩ := hj.resolve_left fun h => isSensor h.2
      exact .inr ⟨by rintro rfl; omega, by omega⟩

/-! ## The enable and direction bytes -/

theorem packEn_get (role : ChannelIx → Role) (k : GpioBit) :
    (packEn role).getLsbD k.val = decide (role (channelOfBit k) ≠ .sensor) :=
  packBits_get _ k

theorem packDir_get (role : ChannelIx → Role) (k : GpioBit) :
    (packDir role).getLsbD k.val = decide (role (channelOfBit k) = .gpioOut) :=
  packBits_get _ k

/-- A byte is known by its eight bits. -/
theorem byte_eq_of_bits {a b : Byte} (h : ∀ k : GpioBit, a.getLsbD k.val = b.getLsbD k.val) :
    a = b :=
  BitVec.eq_of_getLsbD_eq fun i hi => h ⟨i, hi⟩

/-- Bit k of `0xFF << m`. -/
theorem allOnes_shift_get (m : Nat) (k : GpioBit) :
    (0xFF#8 <<< m).getLsbD k.val = decide (m ≤ k.val) := by
  have inByte : k.val - m < 8 := by omega
  rw [show 0xFF#8 = BitVec.allOnes 8 from rfl, BitVec.getLsbD_shiftLeft, BitVec.getLsbD_allOnes]
  simp only [k.isLt, inByte, decide_true, Bool.true_and, Bool.and_true, ← decide_not, not_lt]

/-- Settles O34, bit by bit: of a contiguous table the channels from the count on are no SENSOR. -/
theorem packedBytes : Obligations.PackedBytes := by
  intro role
  refine ⟨fun k => ⟨packEn_get role k, packDir_get role k⟩, byte_eq_of_bits fun k => ?_,
    fun cont _ => byte_eq_of_bits fun k => ?_⟩
  · rw [BitVec.getLsbD_and, packEn_get, packDir_get]
    cases role (channelOfBit k) <;> rfl
  · obtain ⟨-, sensor⟩ := contiguous_count cont
    rw [packEn_get, allOnes_shift_get, decide_eq_decide, Ne, sensor]
    simp only [channelOfBit]
    omega

/-! ## The electrode count -/

/-- The count over rising channels: the start value if no SENSOR is among them, otherwise the last
SENSOR plus one. -/
theorem foldl_sensor (role : ChannelIx → Role) {l : List ChannelIx} (rising : l.Pairwise (· < ·))
    (n : Nat) :
    let count := l.foldl (fun n c => if role c = .sensor then c.val + 1 else n) n
    count = n ∧ (∀ i ∈ l, role i ≠ .sensor) ∨
      ∃ c ∈ l, role c = .sensor ∧ count = c.val + 1 ∧ ∀ i ∈ l, role i = .sensor → i ≤ c := by
  induction l generalizing n with
  | nil => exact .inl ⟨rfl, by simp⟩
  | cons a l ih =>
    obtain ⟨first, later⟩ := List.pairwise_cons.mp rising
    rcases ih later (if role a = .sensor then a.val + 1 else n) with
      ⟨e, noSensor⟩ | ⟨c, hc, sensor, e, top⟩
    · by_cases ha : role a = .sensor
      · refine .inr ⟨a, by simp, ha, e.trans (if_pos ha), ?_⟩
        simpa using fun i hi hs => absurd hs (noSensor i hi)
      · exact .inl ⟨e.trans (if_neg ha), by simpa [ha] using noSensor⟩
    · refine .inr ⟨c, List.mem_cons_of_mem _ hc, sensor, e, ?_⟩
      simpa using ⟨fun _ => (first c hc).le, top⟩

/-- `count()` is the highest SENSOR index plus one (40_channel_role_packer.md R106). -/
theorem sensorCount_highest {role : ChannelIx → Role} {i : ChannelIx} (h : role i = .sensor) :
    ∃ c, role c = .sensor ∧ sensorCount role = c.val + 1 ∧ ∀ i, role i = .sensor → i ≤ c := by
  have all : ∀ i, i ∈ allChannels := by decide
  rcases foldl_sensor role (l := allChannels) (by decide) 0 with
    ⟨-, noSensor⟩ | ⟨c, -, hc, e, top⟩
  · exact absurd h (noSensor i (all i))
  · exact ⟨c, hc, e, fun i => top i (all i)⟩

theorem ecrValue_low (n : Nat) : (ecrValue n).extractLsb' 0 4 = BitVec.ofNat 4 n :=
  BitVec.extractLsb'_append_eq_right

theorem ecrValue_high (n : Nat) : (ecrValue n).extractLsb' 4 4 = Config.ecrHi :=
  BitVec.extractLsb'_append_eq_left

/-- Settles O35: channel 3 is a SENSOR, so that the highest one is 3 to 11 and the count fits four
bits. -/
theorem electrodeCount : Obligations.ElectrodeCount := by
  intro role low
  have three : role 3 = .sensor := low 3 (by decide)
  obtain ⟨c, sensor, count, top⟩ := sensorCount_highest three
  have atLeast : 3 ≤ c.val := top 3 three
  refine ⟨⟨c, sensor, count, top⟩, by omega, by omega, ?_, ecrValue_high _⟩
  rw [ecrValue_low, BitVec.toNat_ofNat]
  omega

end Sys2Proof.Machine
end

/-! # SETTYPE in a quiet environment -/

section
namespace Sys2Proof.Machine

/-- The chip's registers after the four writes of SETTYPE (40_channel_role_packer.md R105 to R107):
the last of them leaves the data register undetermined (20_memory.md R59). -/
def settypeRegs (regs : List Host.Cell) (role : ChannelIx → Role) : List Host.Cell :=
  let enabled := Memory.write regs 0x77 (packEn role)
  let directed := Memory.write enabled 0x76 (packDir role)
  let counted := Memory.write directed 0x5E (ecrValue (sensorCount role))
  Memory.forget (Memory.write counted 0x79 0xFF#8) 0x75

/-- The micro-steps of SETTYPE one after the other (40_channel_role_packer.md R100). -/
theorem quietRun_settype (s : State) (f : InFlight) (c : ChannelIx) (r : Role) :
    quietRun s f (settypeOps c r) = (({ s.setRole c r with
      xpOut := s.xpOut ++ (settypeRequests s.address (roleUpdate s.role c r)).map Request.word
      regs := settypeRegs s.regs (roleUpdate s.role c r)
      outLatch := 0x00#8 } : State).clearLevels).respond f.data := by
  simp only [settypeOps, quietRun, quietOp_assignRole, quietOp_writeEnable, quietOp_writeDirection,
    quietOp_writeElectrodes, quietOp_clearOutputs]
  have role (xp regs) : ({ s.setRole c r with xpOut := xp, regs := regs } : State).role =
      roleUpdate s.role c r := role_setRole s c r
  simp only [role]
  simp [settypeRequests, settypeRegs, Request.word, ecrValue]

/-- What is left in the chip's registers by SETTYPE, register by register. -/
theorem read_settypeRegs (regs : List Host.Cell) (role : ChannelIx → Role) (a : Nat) :
    Memory.read (settypeRegs regs role) a =
      if a = 0x75 then none
      else if a = 0x79 then some 0xFF#8
      else if a = 0x5E then some (ecrValue (sensorCount role))
      else if a = 0x76 then some (packDir role)
      else if a = 0x77 then some (packEn role)
      else Memory.read regs a := by
  unfold settypeRegs
  split_ifs with h1 h2 h3 h4 h5
  · subst h1; exact Memory.read_forget_same _ _
  all_goals rw [Memory.read_forget_other _ h1]
  · subst h2; exact Memory.read_write_same _ _ _
  all_goals rw [Memory.read_write_other _ _ h2]
  · subst h3; exact Memory.read_write_same _ _ _
  all_goals rw [Memory.read_write_other _ _ h3]
  · subst h4; exact Memory.read_write_same _ _ _
  all_goals rw [Memory.read_write_other _ _ h4]
  · subst h5; exact Memory.read_write_same _ _ _
  · exact Memory.read_write_other _ _ h5

/-- A command that has just been accepted has no data yet. -/
@[simp] theorem fresh_data (s : State) : s.fresh.data = 0#12 := rfl

/-- An accepted SETTYPE in a quiet environment. -/
theorem start_settype_quiet {s : State} (c : ChannelIx) (r : Role) (quiet : s.QuietFor 5) :
    s.start (settypeOps c r) = { s with
      x := (s.setRole c r).clearLevels.x
      busy := none
      script := s.script.drop 5
      rspOut := s.rspOut ++ [0x0000#16]
      xpOut := s.xpOut ++ (settypeRequests s.address (roleUpdate s.role c r)).map Request.word
      regs := settypeRegs s.regs (roleUpdate s.role c r)
      outLatch := 0x00#8 } := by
  rw [start_quiet (ops := settypeOps c r) quiet, quietRun_settype, fresh_data]
  rfl

/-- Settles O29: the micro-steps run one after the other, and the registers are those of the four
writes. -/
theorem settypeReprogramsTheChip : Obligations.SettypeReprogramsTheChip := by
  intro s c r accepted quiet role'
  refine ⟨_, exec_settype_accepted accepted, ?_⟩
  have reg := read_settypeRegs s.regs role'
  rw [start_settype_quiet c r quiet]
  refine ⟨fun i => ?_, reg 0x77, reg 0x76, reg 0x5E, reg 0x79, reg 0x75,
    fun a en dir ecr clr dat => ?_, rfl⟩
  · refine (chan_congr (s := (s.setRole c r).clearLevels) rfl i).trans ?_
    rw [chan_clearLevels, chan_setRole]
  · refine (reg a).trans ?_
    simp [*]

end Sys2Proof.Machine
end

/-! # Requests in a row, and a command cut by BUS_ERROR -/

section
namespace Sys2Proof.Machine

/-! ## The chip under requests -/

/-- The two states have the same chip: the registers, the output latches, and the free values still
to draw. -/
structure SameChip (s u : State) : Prop where
  regs : u.regs = s.regs
  outLatch : u.outLatch = s.outLatch
  draws : u.draws = s.draws

@[simp] theorem performAll_nil (s : State) : s.performAll [] = s := rfl

@[simp] theorem performAll_cons (s : State) (r : Request) (rs : List Request) :
    s.performAll (r :: rs) = (s.perform r).2.performAll rs := rfl

theorem performAll_append (s : State) (rs qs : List Request) :
    s.performAll (rs ++ qs) = (s.performAll rs).performAll qs :=
  List.foldl_append

namespace SameChip
variable {s u v : State}

theorem trans (h : SameChip s u) (h' : SameChip u v) : SameChip s v :=
  ⟨h'.regs.trans h.regs, h'.outLatch.trans h.outLatch, h'.draws.trans h.draws⟩

/-- What a request does at the chip depends on the chip only. -/
theorem perform (h : SameChip s u) (r : Request) : SameChip (s.perform r).2 (u.perform r).2 := by
  obtain ⟨regs, outLatch, draws⟩ := h
  cases r with
  | read8 d reg =>
    change SameChip (s.memRead8 reg).2 (u.memRead8 reg).2
    rw [memRead8_frame s, memRead8_frame u]
    exact ⟨regs, outLatch, (memRead8_congr regs draws reg).2⟩
  | read16 d reg =>
    change SameChip (s.memRead16 reg).2 (u.memRead16 reg).2
    rw [memRead16_frame s, memRead16_frame u]
    exact ⟨regs, outLatch, (memRead16_congr regs draws reg).2⟩
  | write8 d reg v =>
    obtain ⟨regs', outLatch', draws'⟩ := memWrite8_congr regs outLatch draws reg v
    exact ⟨regs', outLatch', draws'⟩

theorem performAll (h : SameChip s u) (rs : List Request) :
    SameChip (s.performAll rs) (u.performAll rs) := by
  induction rs generalizing s u with
  | nil => exact h
  | cons r rs ih => exact ih (h.perform r)

end SameChip

theorem sameChip_logRequest (s : State) (r : Request) : SameChip s (s.logRequest r) :=
  ⟨rfl, rfl, rfl⟩

/-- The state after requests that were issued and answered without error, in order. -/
def State.issue (s : State) (rs : List Request) : State :=
  { s with
    xpOut := s.xpOut ++ rs.map Request.word
    regs := (s.performAll rs).regs
    outLatch := (s.performAll rs).outLatch
    draws := (s.performAll rs).draws }

@[simp] theorem issue_nil (s : State) : s.issue [] = s := by
  simp [State.issue]

theorem sameChip_issue (s : State) (rs : List Request) : SameChip (s.performAll rs) (s.issue rs) :=
  ⟨rfl, rfl, rfl⟩

/-- One request is issued and answered, and then the others. -/
theorem issue_cons (s : State) (r : Request) (rs : List Request) :
    s.issue (r :: rs) = ((s.logRequest r).perform r).2.issue rs := by
  have chip : SameChip ((s.perform r).2.performAll rs)
      (((s.logRequest r).perform r).2.performAll rs) :=
    ((sameChip_logRequest s r).perform r).performAll rs
  have frame := perform_frame (s.logRequest r) r
  generalize ((s.logRequest r).perform r).2 = u at chip frame ⊢
  obtain ⟨regs, outLatch, draws⟩ := chip
  rw [State.issue, State.issue, performAll_cons, regs, outLatch, draws, frame]
  simp [State.logRequest]

/-- A write that fails but lands is at the chip as one that succeeds (41_gpio_bit_ops.md R121). -/
theorem performFailed_of_mayLand (s : State) {r : Request} (h : r.mayLand = true) :
    s.performFailed r true = (s.perform r).2 := by
  cases r with
  | write8 d reg v => exact performFailed_landed s d v (of_decide_eq_true h)
  | read8 d reg => cases h
  | read16 d reg => cases h

/-- Writes that are no soft reset draw no free value. -/
theorem performAll_draws {rs : List Request} (s : State)
    (h : ∀ r ∈ rs, ∃ d reg v, r = .write8 d reg v ∧ reg ≠ regSoftReset) :
    (s.performAll rs).draws = s.draws := by
  induction rs generalizing s with
  | nil => rfl
  | cons r rs ih =>
    obtain ⟨d, reg, v, rfl, noReset⟩ := h r (by simp)
    refine (ih (s.memWrite8 reg v) fun q hq => h q (List.mem_cons_of_mem _ hq)).trans ?_
    rcases memWrite8_cases s (v := v) (fun reset => noReset reset.1) with e | ⟨-, latch, e⟩
    · rw [e, storeByte_draws]
    · rw [e, driveLatches_draws, storeByte_draws]

/-! ## Micro-steps before the one that fails -/

/-- Micro-steps one after the other, each with its request answered at once. -/
def quietOps (s : State) (f : InFlight) : List MicroOp → State × InFlight
  | [] => (s, f)
  | op :: rest => quietOps (quietOp s f op).1 (quietOp s f op).2 rest

/-- The sequencer runs the first micro-steps of a command while the environment is quiet. -/
theorem runMicro_quietOps (pre tail : List MicroOp) (s : State) (f : InFlight) (sc : List Slot)
    (n : Nat) (hq : ∀ slot ∈ sc.take pre.length, slot = Slot.quiet) :
    runMicro (pre.length + n)
        (s.book (some { f with todo := pre ++ tail, outstanding := none }) sc) =
      runMicro n ((quietOps s f pre).1.book
        (some { (quietOps s f pre).2 with todo := tail, outstanding := none })
        (sc.drop pre.length)) := by
  induction pre generalizing s f sc with
  | nil => simp [quietOps]
  | cons op rest ih =>
    obtain ⟨now, later⟩ := quiet_tail (n := rest.length) hq
    rw [show (op :: rest).length + n = (rest.length + n) + 1 by simp; omega,
      runMicro_step rfl rfl rfl, microStep_book now, List.append_eq, ih _ _ _ later]
    simp [quietOps]

theorem book_performFailed (s : State) (b : Option InFlight) (sc : List Slot) (r : Request)
    (landed : Bool) :
    (s.book b sc).performFailed r landed = (s.performFailed r landed).book b sc := by
  cases r with
  | read8 d reg => rfl
  | read16 d reg => rfl
  | write8 d reg v =>
    simp only [State.performFailed, State.land]
    split
    · exact book_memWrite8 s b sc reg v
    · rfl

/-- A command whose request `r` fails after the quiet micro-steps `pre` ends there with BUS_ERROR
(20_memory.md R55): what they have done stays, and no later micro-step runs. -/
theorem start_cut {s : State} {pre post : List MicroOp} {op : MicroOp} {r : Request}
    {landed : Bool} {rest : List Slot}
    (hs : s.script =
      List.replicate pre.length Slot.quiet ++ ⟨[], some (.error landed)⟩ :: rest)
    (hr : opRequest (quietOps s s.fresh pre).1 (quietOps s s.fresh pre).2 op = some r) :
    s.start (pre ++ op :: post) =
      { (((quietOps s s.fresh pre).1.logRequest r).performFailed r landed).reject .busError with
        script := rest } := by
  have quiet : ∀ slot ∈ s.script.take pre.length, slot = Slot.quiet := by
    rw [hs, List.take_left' List.length_replicate]
    exact fun slot => List.eq_of_mem_replicate
  have start : s.start (pre ++ op :: post) = runMicro (pre.length + (post.length + 2))
      (s.book (some { s.fresh with todo := pre ++ op :: post, outstanding := none }) s.script) := by
    rw [show pre.length + (post.length + 2) = (pre ++ op :: post).length + 1 by simp; omega]
    rfl
  rw [start, runMicro_quietOps pre _ s s.fresh s.script _ quiet, hs,
    List.drop_left' List.length_replicate, runMicro_step rfl rfl rfl,
    microStep_failed (r := r) (landed := landed) rfl rfl
      (by rw [book_opRequest, opRequest_todo, hr])]
  generalize quietOps s s.fresh pre = u
  rw [runMicro_idle rfl]
  have book (b : Option InFlight) :
      ((u.1.book b (⟨[], some (.error landed)⟩ :: rest)).dropSlot.logRequest r) =
        (u.1.logRequest r).book b rest := rfl
  rw [book, book_performFailed]
  rfl

/-- A micro-step that does nothing but to issue its request. -/
structure MicroOp.OnlyRequests (op : MicroOp) : Prop where
  effect : ∀ s f, opEffect s f op = s
  sequencer : ∀ s f d, opSequencer s f d op = f

/-- Micro-steps that only issue their requests issue them in order. -/
theorem quietOps_requests {ops : List MicroOp} {rs : List Request} {s : State} {f : InFlight}
    (hr : ops.map (opRequest s f) = rs.map some) (only : ∀ op ∈ ops, op.OnlyRequests) :
    quietOps s f ops = (s.issue rs, f) := by
  induction ops generalizing s rs with
  | nil =>
    obtain rfl : rs = [] := by simpa using hr.symm
    simp [quietOps]
  | cons op ops ih =>
    cases rs with
    | nil => cases hr
    | cons r rs =>
      obtain ⟨first, later⟩ := List.cons.inj hr
      have now : quietOp s f op = (((s.logRequest r).perform r).2, f) := by
        obtain ⟨effect, sequencer⟩ := only op (by simp)
        simp only [quietOp, first, effect, sequencer]
      have frame := perform_frame (s.logRequest r) r
      have same : opRequest ((s.logRequest r).perform r).2 f = opRequest s f := by
        funext o
        exact opRequest_congr (by rw [frame]; rfl) (by rw [frame]; rfl)
      rw [issue_cons, quietOps, now]
      exact ih (by rw [same]; exact later) fun o ho => only o (List.mem_cons_of_mem _ ho)

/-! ## SETTYPE cut by BUS_ERROR -/

/-- The four micro-steps of SETTYPE that issue a request (40_channel_role_packer.md R100). -/
def settypeWrites : List MicroOp :=
  [.writeEnable, .writeDirection, .writeElectrodes, .clearOutputs]

theorem settypeOps_eq (c : ChannelIx) (r : Role) :
    settypeOps c r = .assignRole c r :: settypeWrites := rfl

theorem settypeWrites_requests (s : State) (f : InFlight) :
    settypeWrites.map (opRequest s f) = (settypeRequests s.address s.role).map some := rfl

/-- Before S5 each write of SETTYPE does nothing but to issue its request. -/
theorem settypeWrites_onlyRequests : ∀ op ∈ settypeWrites.dropLast, op.OnlyRequests := by
  intro op h
  simp only [settypeWrites, List.dropLast_cons_cons, List.dropLast_singleton, List.mem_cons,
    List.not_mem_nil, or_false] at h
  rcases h with rfl | rfl | rfl <;> exact ⟨fun _ _ => rfl, fun _ _ _ => rfl⟩

/-- The registers that SETTYPE writes (40_channel_role_packer.md R105 to R107). -/
def settypeRegisters : List RegNo := [regGpioEn, regGpioDir, regEcr, regGpioClr]

theorem settypeRequests_writes {address : BitVec 7} {role : ChannelIx → Role} {q : Request}
    (h : q ∈ settypeRequests address role) :
    ∃ d v, ∃ reg ∈ settypeRegisters, q = .write8 d reg v := by
  simp only [settypeRequests, List.mem_cons, List.not_mem_nil, or_false] at h
  rcases h with rfl | rfl | rfl | rfl <;> exact ⟨_, _, _, by decide, rfl⟩

/-- No write of SETTYPE is a soft reset. -/
theorem settypeRegisters_noReset : ∀ reg ∈ settypeRegisters, reg ≠ regSoftReset := by decide

/-- Each write of SETTYPE may land when it fails (41_gpio_bit_ops.md R121). -/
theorem settypeRequests_mayLand {address : BitVec 7} {role : ChannelIx → Role} {q : Request}
    (h : q ∈ settypeRequests address role) : q.mayLand = true := by
  have noCtl1 : ∀ reg ∈ settypeRegisters, reg ≠ regGpioCtl1 := by decide
  obtain ⟨d, v, reg, hreg, rfl⟩ := settypeRequests_writes h
  exact decide_eq_true (noCtl1 reg hreg)

/-- The chip after the requests `qs` and a failed one: the failed one is there if it landed. -/
theorem sameChip_cut {s u : State} (h : SameChip s u) (qs later : List Request) {q : Request}
    (land : q.mayLand = true) (landed : Bool) :
    SameChip (s.performAll ((qs ++ q :: later).take (qs.length + landed.toNat)))
      (((u.issue qs).logRequest q).performFailed q landed) := by
  have before := ((h.performAll qs).trans (sameChip_issue u qs)).trans (sameChip_logRequest _ q)
  rw [List.take_length_add_append, performAll_append]
  cases landed with
  | false => rwa [performFailed_false]
  | true =>
    rw [performFailed_of_mayLand _ land]
    exact before.perform q

/-- A SETTYPE that has issued the writes `qs` comes to the micro-step that issues the next one
(40_channel_role_packer.md R100). -/
theorem settype_reaches {s : State} {c : ChannelIx} {r : Role} {qs later : List Request}
    {q : Request}
    (split : settypeRequests s.address (roleUpdate s.role c r) = qs ++ q :: later) :
    ∃ pre op post, settypeOps c r = pre ++ op :: post ∧ pre.length = qs.length + 1 ∧
      quietOps s s.fresh pre = ((s.setRole c r).issue qs, s.fresh) ∧
      opRequest ((s.setRole c r).issue qs) s.fresh op = some q := by
  have requests := settypeWrites_requests (s.setRole c r) s.fresh
  rw [role_setRole, setRole_address, split, List.map_append, List.map_cons] at requests
  obtain ⟨pre, tail, ops, issued, htail⟩ := List.map_eq_append_iff.mp requests
  obtain ⟨op, post, rfl, next, -⟩ := List.map_eq_cons_iff.mp htail
  have only : ∀ o ∈ pre, o.OnlyRequests := fun o ho =>
    settypeWrites_onlyRequests o (by rw [ops, List.dropLast_append_cons]; simp [ho])
  refine ⟨.assignRole c r :: pre, op, post, ?_, ?_, quietOps_requests issued only, next⟩
  · rw [settypeOps_eq, ops, List.cons_append]
  · simpa using congrArg List.length issued

/-- A SETTYPE whose write `q` fails after the writes `qs` (40_channel_role_packer.md R110). -/
theorem start_settype_cut {s : State} {c : ChannelIx} {r : Role} {qs later : List Request}
    {q : Request} {landed : Bool} {rest : List Slot}
    (split : settypeRequests s.address (roleUpdate s.role c r) = qs ++ q :: later)
    (hs : s.script =
      List.replicate (qs.length + 1) Slot.quiet ++ ⟨[], some (.error landed)⟩ :: rest) :
    let done := (qs ++ q :: later).take (qs.length + landed.toNat)
    s.start (settypeOps c r) = { s with
      x := (s.setRole c r).x
      busy := none
      script := rest
      rspOut := s.rspOut ++ [0x7000#16]
      xpOut := s.xpOut ++ (qs ++ [q]).map Request.word
      regs := (s.performAll done).regs
      outLatch := (s.performAll done).outLatch } := by
  obtain ⟨pre, op, post, ops, length, before, failing⟩ := settype_reaches split
  have writes (p : Request) (hp : p ∈ qs ++ q :: later) :
      p ∈ settypeRequests s.address (roleUpdate s.role c r) := split ▸ hp
  have chip := sameChip_cut (s := s) (u := s.setRole c r) ⟨rfl, rfl, rfl⟩ qs later
    (settypeRequests_mayLand (writes q (by simp))) landed
  have draws :
      (s.performAll ((qs ++ q :: later).take (qs.length + landed.toNat))).draws = s.draws :=
    performAll_draws s fun p hp => by
      obtain ⟨d, v, reg, hreg, rfl⟩ := settypeRequests_writes (writes p (List.mem_of_mem_take hp))
      exact ⟨d, reg, v, rfl, settypeRegisters_noReset reg hreg⟩
  rw [ops, start_cut (r := q) (landed := landed) (rest := rest) (by rw [hs, length])
    (by rw [before]; exact failing), before, performFailed_frame, chip.regs, chip.outLatch,
    chip.draws, draws]
  simp [State.issue, State.logRequest, State.reject, statusCode]

/-- Settles O31: the requests before the j-th one are answered, and it is the one that fails. -/
theorem settypeBusErrorKeepsWhatIsDone : Obligations.SettypeBusErrorKeepsWhatIsDone := by
  intro s c r j landed rest accepted hj hs role' requests
  refine ⟨_, exec_settype_accepted accepted, ?_⟩
  obtain ⟨qs, q, later, split, rfl⟩ :
      ∃ qs q later, requests = qs ++ q :: later ∧ qs.length = j := by
    have inRequests : j < requests.length := hj
    refine ⟨requests.take j, requests[j], requests.drop (j + 1), ?_, ?_⟩
    · rw [List.getElem_cons_drop, List.take_append_drop]
    · exact List.length_take_of_le inRequests.le
  rw [start_settype_cut split hs, split, List.take_length_add_append 1]
  refine ⟨fun i => ?_, rfl, rfl, rfl⟩
  exact (chan_congr (s := s.setRole c r) rfl i).trans (chan_setRole s c i r)

end Sys2Proof.Machine
end

/-! # What SETTYPE leaves alone -/

section
namespace Sys2Proof.Machine

/-- The chip registers that SETTYPE leaves alone: GPIO_CTL0, GPIO_CTL1 and the thresholds
(40_channel_role_packer.md R108). -/
abbrev SparedBySettype (a : Nat) : Prop := a = 0x73 ∨ a = 0x74 ∨ 0x41 ≤ a ∧ a ≤ 0x58

/-- Of the block only roles and cached levels may have changed, and the interrupt latch may have
been set; at the chip the registers that SETTYPE spares are as they were (40_channel_role_packer.md
R108). -/
structure SettypeKeeps (s u : State) : Prop where
  chan : ∀ i, u.chan i = { s.chan i with
    role := (u.chan i).role, gpioOutputHigh := (u.chan i).gpioOutputHigh }
  useIRQ : u.useIRQ = s.useIRQ
  debounceDefault : u.debounceDefault = s.debounceDefault
  address : u.address = s.address
  latch : s.interrupted = true → u.interrupted = true
  regs : ∀ a, SparedBySettype a → Memory.read u.regs a = Memory.read s.regs a

namespace SettypeKeeps
variable {s u v : State}

theorem refl (s : State) : SettypeKeeps s s :=
  ⟨fun _ => rfl, rfl, rfl, rfl, id, fun _ _ => rfl⟩

theorem trans (h : SettypeKeeps s u) (h' : SettypeKeeps u v) : SettypeKeeps s v where
  chan i := by rw [h'.chan, h.chan]
  useIRQ := h'.useIRQ.trans h.useIRQ
  debounceDefault := h'.debounceDefault.trans h.debounceDefault
  address := h'.address.trans h.address
  latch := h'.latch ∘ h.latch
  regs a ha := (h'.regs a ha).trans (h.regs a ha)

/-- Nothing is said of the sequencer, the time input, the script and the two output ports. -/
theorem of_bookkeeping (h : u = { s with
    busy := u.busy, now := u.now, script := u.script, xpOut := u.xpOut, rspOut := u.rspOut }) :
    SettypeKeeps s u := by
  rw [h]
  exact ⟨fun _ => rfl, rfl, rfl, rfl, id, fun _ _ => rfl⟩

/-- A move of the chip that leaves the spared registers alone. -/
theorem of_chipMoves (h : ChipMoves s u)
    (regs : ∀ a, SparedBySettype a → Memory.read u.regs a = Memory.read s.regs a) :
    SettypeKeeps s u := by
  refine ⟨fun i => by rw [h.env.chan i], ?_, h.env.debounceDefault, h.env.address,
    fun hi => h.interrupted.trans hi, regs⟩
  rw [h.frame]

/-- FIREIRQ and the passing of time. -/
theorem applyEvents {es : List Event} (h : ∀ e ∈ es, e = .fireIrq ∨ ∃ v, e = .setNow v) :
    SettypeKeeps s (s.applyEvents es) := by
  induction es generalizing s with
  | nil => exact refl s
  | cons e es ih =>
    have first : SettypeKeeps s (s.applyEvent e) := by
      rcases h e (by simp) with rfl | ⟨v, rfl⟩
      · exact ⟨fun _ => rfl, rfl, rfl, rfl, fun _ => rfl, fun _ _ => rfl⟩
      · exact .of_bookkeeping rfl
    exact first.trans (ih fun e' he => h e' (List.mem_cons_of_mem _ he))

theorem arrive (h : s.ChipStill) : SettypeKeeps s s.arrive := by
  have drop : SettypeKeeps s s.dropSlot := .of_bookkeeping rfl
  refine drop.trans (applyEvents ?_)
  rcases nextSlot_mem s with e | e
  · rw [e]; simp [Slot.quiet]
  · exact h _ e

theorem send (s : State) (w : ResponseWord) : SettypeKeeps s (s.send w) := .of_bookkeeping rfl

theorem logRequest (s : State) (q : Request) : SettypeKeeps s (s.logRequest q) :=
  .of_bookkeeping rfl

end SettypeKeeps

/-! ## The micro-steps of SETTYPE -/

section
variable {address : BitVec 7} {role : ChannelIx → Role} {q : Request}

/-- A write of SETTYPE spares the registers of R108. -/
theorem settypeKeeps_perform (s : State) (h : q ∈ settypeRequests address role) :
    SettypeKeeps s (s.perform q).2 := by
  refine .of_chipMoves (perform_chipMoves s q) fun a ha => ?_
  obtain ⟨d, v, reg, hreg, rfl⟩ := settypeRequests_writes h
  have spares : ∀ reg ∈ settypeRegisters, ¬ SparedBySettype reg.toNat := by decide
  have other : a ≠ reg.toNat := fun e => spares reg hreg (e ▸ ha)
  have noDat : a ≠ regGpioDat.toNat := fun e => absurd (e ▸ ha) (by decide)
  calc Memory.read (s.memWrite8 reg v).regs a
      = Memory.read (s.storeByte reg v).regs a :=
        read_memWrite8 s (fun reset => settypeRegisters_noReset reg hreg reset.1)
          fun dat => noDat dat.1
    _ = Memory.read s.regs a := storeByte_other s v other

theorem settypeKeeps_performFailed (s : State) (h : q ∈ settypeRequests address role)
    (landed : Bool) : SettypeKeeps s (s.performFailed q landed) := by
  cases landed with
  | false => rw [performFailed_false]; exact .refl s
  | true =>
    rw [performFailed_of_mayLand s (settypeRequests_mayLand h)]
    exact settypeKeeps_perform s h

end

section
variable {op : MicroOp} {c : ChannelIx} {r : Role}

/-- A micro-step of SETTYPE requests one of its four writes, or nothing. -/
theorem opRequest_mem_settypeRequests {s : State} {f : InFlight} {q : Request}
    (hop : op ∈ settypeOps c r) (hq : opRequest s f op = some q) :
    q ∈ settypeRequests s.address s.role := by
  rcases List.mem_cons.mp (settypeOps_eq c r ▸ hop) with rfl | hop
  · cases hq
  · have mem : some q ∈ settypeWrites.map (opRequest s f) := hq ▸ List.mem_map_of_mem hop
    simpa [settypeWrites_requests] using mem

theorem settypeKeeps_finishOp (s : State) (f : InFlight) (rest : List MicroOp) (d : BitVec 16)
    (hop : op ∈ settypeOps c r) : SettypeKeeps s (finishOp s f op rest d) := by
  have effect : SettypeKeeps s (opEffect s f op) := by
    simp only [settypeOps, List.mem_cons, List.not_mem_nil, or_false] at hop
    rcases hop with rfl | rfl | rfl | rfl | rfl
    · exact ⟨fun i => by simp only [opEffect, chan_setRole], rfl, rfl, rfl, id, fun _ _ => rfl⟩
    iterate 3 exact .refl s
    · exact ⟨fun i => by simp only [opEffect, chan_clearLevels], rfl, rfl, rfl, id, fun _ _ => rfl⟩
  exact effect.trans (.of_bookkeeping rfl)

theorem settypeKeeps_microStep {s : State} (f : InFlight) (rest : List MicroOp)
    (still : s.ChipStill) (hop : op ∈ settypeOps c r) :
    SettypeKeeps s (microStep s f op rest) := by
  refine (SettypeKeeps.arrive still).trans ?_
  rcases microStep_cases s f op rest with ⟨-, e⟩ | ⟨-, ⟨-, e⟩ | ⟨q, a, hq, -, e⟩ | ⟨q, -, -, e⟩⟩ <;>
    rw [e]
  · exact .refl _
  · exact settypeKeeps_finishOp _ f rest _ hop
  · have write := opRequest_mem_settypeRequests hop hq
    refine (SettypeKeeps.logRequest _ q).trans ?_
    cases a with
    | ok => exact (settypeKeeps_perform _ write).trans (settypeKeeps_finishOp _ f rest _ hop)
    | error landed => exact (settypeKeeps_performFailed _ write landed).trans (.send _ _)
  · exact .of_bookkeeping rfl

end

/-- A command that is still in progress after a micro-step has no other micro-steps to run than it
had before. -/
theorem microStep_todo_subset {s : State} {f g : InFlight} {op : MicroOp} {rest : List MicroOp}
    (ht : f.todo = op :: rest) (h : (microStep s f op rest).busy = some g) : g.todo ⊆ f.todo := by
  rcases microStep_arrive s f op rest with ⟨e, idle⟩ | ⟨u, -, out⟩
  · cases idle.symm.trans (e ▸ h)
  · generalize microStep s f op rest = m at out h
    cases out with
    | finished d => cases h; simp [ht]
    | failed => cases h
    | waiting q _ => cases h; exact List.Subset.refl _

theorem chipStill_microStep {s : State} (h : s.ChipStill) (f : InFlight) (op : MicroOp)
    (rest : List MicroOp) : (microStep s f op rest).ChipStill :=
  microStep_slots (p := fun slot => ∀ e ∈ slot.events, e = .fireIrq ∨ ∃ v, e = .setNow v)
    h f op rest

/-- A SETTYPE in progress, from S1 on, keeps what R108 lists, however the transport answers. -/
theorem settypeKeeps_run {s u : State} {c : ChannelIx} {r : Role} (still : u.ChipStill)
    (keeps : SettypeKeeps s u) (ops : ∀ f, u.busy = some f → f.todo ⊆ settypeOps c r) :
    SettypeKeeps s u.run := by
  refine run_induction (P := fun u => u.ChipStill ∧ SettypeKeeps s u ∧
      ∀ f, u.busy = some f → f.todo ⊆ settypeOps c r)
    (Q := SettypeKeeps s) ?step ?done ?idle ?waiting ⟨still, keeps, ops⟩
  case step =>
    rintro u f op rest ⟨still, keeps, ops⟩ hb - ht
    have hop : op ∈ settypeOps c r := ops f hb (by simp [ht])
    exact ⟨chipStill_microStep still f op rest,
      keeps.trans (settypeKeeps_microStep f rest still hop),
      fun g hg => List.Subset.trans (microStep_todo_subset ht hg) (ops f hb)⟩
  case done => exact fun u f ⟨_, keeps, _⟩ _ _ _ => keeps.trans (.send u _)
  case idle => exact fun u ⟨_, keeps, _⟩ _ => keeps
  case waiting => exact fun u f q ⟨_, keeps, _⟩ _ _ => keeps

/-- A SETTYPE answers in S0 without any effect, or its micro-steps S1 to S5 run
(40_channel_role_packer.md R100). -/
theorem exec_settype_cases (ch : BitVec 4) (role : BitVec 2) (s : State) :
    (∃ w, exec (.settype ch role) s = .next (s.send w)) ∨
      ∃ c r, exec (.settype ch role) s = .next (s.start (settypeOps c r)) := by
  have outcomes := exec_cases (.settype ch role) s
  simp only [reduceCtorEq, Instr.settype.injEq, false_and, exists_false, false_or,
    or_false] at outcomes
  rcases outcomes with ⟨c, e⟩ | ⟨d, e⟩ | ⟨c, r, -, -, e⟩
  · exact .inl ⟨_, e⟩
  · exact .inl ⟨_, e⟩
  · exact .inr ⟨c, r, e⟩

/-- A command sets the interrupt latch only if a FIREIRQ falls inside it (10_state.md R32). -/
theorem exec_latch {i : Instr} {s t : State} (h : exec i s = .next t)
    (set : t.interrupted = true) : s.interrupted = true ∨ FiresIn s := by
  by_contra neither
  obtain ⟨clear, noFire⟩ := not_or.mp neither
  have inside : s.NoFireInside := fun slot hm he => noFire (.inr ⟨slot, hm, he⟩)
  rcases exec_outcome h with once | ⟨ops, rfl, -, -⟩
  · exact clear (once.interrupted.symm.trans set)
  · have still : (s.start ops).interrupted = false :=
      run_latch (s := s.accept ops) inside (Bool.eq_false_iff.mpr clear)
    cases still.symm.trans set

/-- Settles O32: the four writes are of other registers, S1 and S5 of the roles and the cached
levels. -/
theorem settypeLeavesTouchStateAlone : Obligations.SettypeLeavesTouchStateAlone := by
  intro s t ch role still h
  have keeps : SettypeKeeps s t := by
    rcases exec_settype_cases ch role s with ⟨w, e⟩ | ⟨c, r, e⟩ <;> cases e.symm.trans h
    · exact .send s w
    · refine settypeKeeps_run (u := s.accept (settypeOps c r)) (c := c) (r := r) still
        (.of_bookkeeping rfl) fun f hf => ?_
      cases hf
      exact List.Subset.refl _
  refine ⟨fun i => ?_, keeps.useIRQ, keeps.debounceDefault, keeps.address, keeps.latch,
    exec_latch h, keeps.regs⟩
  rw [keeps.chan i]
  exact ⟨rfl, rfl, rfl, rfl⟩

end Sys2Proof.Machine
end

/-! # GPIO bit operations -/

section
namespace Sys2Proof.Machine

/-! ## The bit of a channel -/

/-- Setting or clearing one bit of a byte leaves the others (41_gpio_bit_ops.md R127). -/
theorem withBit_other (old : Byte) {k : GpioBit} (b : Bool) {j : Nat} (h : j ≠ k.val) :
    (withBit old k b).getLsbD j = old.getLsbD j := by
  have outside : (1#8 <<< k.val).getLsbD j = false := by
    rw [BitVec.getLsbD_shiftLeft, BitVec.getLsbD_one]
    by_cases hj : j < k.val
    · simp [hj]
    · have : j - k.val ≠ 0 := by omega
      simp [this]
  cases b with
  | true => simp only [withBit, if_true, BitVec.getLsbD_or, outside, Bool.or_false]
  | false =>
    simp only [withBit, Bool.false_eq_true, if_false, BitVec.getLsbD_and, BitVec.getLsbD_not,
      outside, Bool.not_false, Bool.and_true, Bool.and_eq_left_iff_imp, decide_eq_true_eq]
    exact BitVec.lt_of_getLsbD

/-- The response word of a cached or live level (41_gpio_bit_ops.md R126). -/
theorem level_word (b : Bool) :
    (0#4 ++ bit12 b : ResponseWord) = if b then 0x0001#16 else 0x0000#16 := by
  cases b <;> rfl

/-! ## What S0 starts -/

/-- The micro-steps of PULLUP (`up`) and of PULLDN (41_gpio_bit_ops.md R122, R123). -/
def pullOps (k : GpioBit) (up : Bool) : List MicroOp :=
  rmwOps regGpioCtl0 k true ++ rmwOps regGpioCtl1 k up

/-- The instruction is PULLUP of the channel (`up`), or PULLDN of it. -/
def Pulls (i : Instr) (c : ChannelIx) (up : Bool) : Prop :=
  i = .pullup (channelOperand c) ∧ up = true ∨ i = .pulldn (channelOperand c) ∧ up = false

theorem exists_pulls {i : Instr} {c : ChannelIx}
    (h : i = .pullup (channelOperand c) ∨ i = .pulldn (channelOperand c)) : ∃ up, Pulls i c up :=
  h.elim (⟨true, .inl ⟨·, rfl⟩⟩) (⟨false, .inr ⟨·, rfl⟩⟩)

section
variable {s : State} {c : ChannelIx}

theorem exec_pull {i : Instr} {up : Bool} (pulls : Pulls i c up) (h : s.role c = .gpioIn) :
    exec i s = .next (s.start (pullOps (gpioBit c) up)) := by
  rcases pulls with ⟨rfl, rfl⟩ | ⟨rfl, rfl⟩
  · simp [exec, execPullup, pullChannel, h, pullOps]
  · simp [exec, execPulldn, pullChannel, h, pullOps]

theorem exec_gpioen_sensor (en : Bool) (h : s.role c = .sensor) :
    exec (.gpioen (channelOperand c) en) s = .next (s.respond 0#12) := by
  simp [exec, execGpioen, enableChannel, h]

theorem exec_gpioen_gpio (en : Bool) (h : s.role c ≠ .sensor) :
    exec (.gpioen (channelOperand c) en) s =
      .next (s.start (rmwOps regGpioEn (gpioBit c) en)) := by
  simp [exec, execGpioen, enableChannel, h]

theorem exec_gpiost_input (h : s.role c = .gpioIn) :
    exec (.gpiost (channelOperand c)) s =
      .next (s.start [.readRegister regGpioDat, .cacheLevel c]) := by
  simp [exec, execGpiost, statusChannel, h]

end

/-- Settles O39: S0 answers OK, and no micro-step follows. -/
theorem gpioenIgnoresSensors : Obligations.GpioenIgnoresSensors :=
  fun _ _ en sensor => exec_gpioen_sensor en sensor

/-! ## The read-modify-write in a quiet environment -/

/-- The registers of the read-modify-writes: GPIO_CTL0 and GPIO_CTL1 of the pulls, GPIO_EN of GPIOEN
(41_gpio_bit_ops.md R122 to R124). -/
def RmwRegister (reg : RegNo) : Prop :=
  reg = regGpioCtl0 ∨ reg = regGpioCtl1 ∨ reg = regGpioEn

/-- What `rmw(reg, k, b)` of 41_gpio_bit_ops.md R121 comes to when both its requests are answered:
the byte read is written back with its bit k replaced. -/
def State.rmw (s : State) (reg : RegNo) (k : GpioBit) (b : Bool) : State :=
  let new := withBit (s.memRead8 reg).1 k b
  { s with
    xpOut := s.xpOut ++ [.read8 s.address reg, .write8 s.address reg new]
    regs := Memory.write s.regs reg.toNat new
    draws := (s.memRead8 reg).2.draws }

/-- The write of a read-modify-write stores its byte and does nothing else. -/
theorem quietOp_writeBit_rmw (s : State) (f : InFlight) {reg : RegNo} (k : GpioBit) (b : Bool)
    (h : RmwRegister reg) :
    quietOp s f (.writeBit reg k b) = ({ s with
      xpOut := s.xpOut ++ [.write8 s.address reg (withBit (f.held.setWidth 8) k b)]
      regs := Memory.write s.regs reg.toNat (withBit (f.held.setWidth 8) k b) }, f) := by
  rcases h with rfl | rfl | rfl <;>
    exact quietOp_writeBit s f k b (by decide) (by decide) (by decide) (by decide) (by decide)

theorem quietOps_rmw (s : State) (f : InFlight) {reg : RegNo} (k : GpioBit) (b : Bool)
    (h : RmwRegister reg) :
    quietOps s f (rmwOps reg k b) =
      (s.rmw reg k b, { f with held := (s.memRead8 reg).1.setWidth 16 }) := by
  have held : ((s.memRead8 reg).1.setWidth 16).setWidth 8 = (s.memRead8 reg).1 := by simp
  simp only [rmwOps, quietOps, quietOp_readRegister, quietOp_writeBit_rmw _ _ k b h, held,
    List.append_assoc, List.cons_append, List.nil_append]
  rfl

/-- Micro-steps one after the other, cut in two. -/
theorem quietOps_append (s : State) (f : InFlight) (pre ops : List MicroOp) :
    quietOps s f (pre ++ ops) = quietOps (quietOps s f pre).1 (quietOps s f pre).2 ops := by
  induction pre generalizing s f with
  | nil => rfl
  | cons op pre ih => exact ih _ _

/-- A command in a quiet environment is its micro-steps and then the response. -/
theorem quietRun_eq_respond (s : State) (f : InFlight) (ops : List MicroOp) :
    quietRun s f ops = (quietOps s f ops).1.respond (quietOps s f ops).2.data := by
  induction ops generalizing s f with
  | nil => rfl
  | cons op ops ih => exact ih _ _

theorem quietRun_rmw (s : State) (f : InFlight) {reg : RegNo} (k : GpioBit) (b : Bool)
    (h : RmwRegister reg) :
    quietRun s f (rmwOps reg k b) = (s.rmw reg k b).respond f.data := by
  rw [quietRun_eq_respond, quietOps_rmw s f k b h]

theorem quietRun_pull (s : State) (f : InFlight) (k : GpioBit) (up : Bool) :
    quietRun s f (pullOps k up) =
      ((s.rmw regGpioCtl0 k true).rmw regGpioCtl1 k up).respond f.data := by
  rw [pullOps, quietRun_eq_respond, quietOps_append, quietOps_rmw s f k true (.inl rfl),
    quietOps_rmw _ _ k up (.inr (.inl rfl))]

/-- What a read answers depends on its own register and the count of free values only. -/
theorem memRead8_local {s u : State} {reg : RegNo}
    (hr : Memory.read u.regs reg.toNat = Memory.read s.regs reg.toNat) (hd : u.draws = s.draws) :
    (u.memRead8 reg).1 = (s.memRead8 reg).1 ∧
      (u.memRead8 reg).2.draws = (s.memRead8 reg).2.draws := by
  simp only [State.memRead8, State.readByteAt, State.drawByte, hr]
  cases Memory.read s.regs reg.toNat <;> simp [hd]

/-- After the read-modify-write of GPIO_CTL0 a read of GPIO_CTL1 is as one without its write. -/
theorem memRead8_ctl1_rmw_ctl0 (s : State) (k : GpioBit) :
    ((s.rmw regGpioCtl0 k true).memRead8 regGpioCtl1).1 =
        ((s.memRead8 regGpioCtl0).2.memRead8 regGpioCtl1).1 ∧
      ((s.rmw regGpioCtl0 k true).memRead8 regGpioCtl1).2.draws =
        ((s.memRead8 regGpioCtl0).2.memRead8 regGpioCtl1).2.draws := by
  refine memRead8_local ?_ rfl
  rw [memRead8_frame]
  exact Memory.read_write_other _ _ (by decide)

/-- The two read-modify-writes of a pull (41_gpio_bit_ops.md R122, R123). -/
theorem rmw_ctl0_rmw_ctl1 (s : State) (k : GpioBit) (up : Bool) :
    let ctl0 := s.memRead8 0x73#8
    let ctl1 := ctl0.2.memRead8 0x74#8
    let new0 := withBit ctl0.1 k true
    let new1 := withBit ctl1.1 k up
    (s.rmw regGpioCtl0 k true).rmw regGpioCtl1 k up = { s with
      xpOut := s.xpOut ++ [.read8 s.address 0x73#8, .write8 s.address 0x73#8 new0,
        .read8 s.address 0x74#8, .write8 s.address 0x74#8 new1]
      regs := Memory.write (Memory.write s.regs 0x73 new0) 0x74 new1
      draws := ctl1.2.draws } := by
  intro ctl0 ctl1 new0 new1
  obtain ⟨read, drawn⟩ := memRead8_ctl1_rmw_ctl0 s k
  rw [State.rmw, read, drawn]
  dsimp only [State.rmw]
  rw [List.append_assoc]
  rfl

/-- Settles O38: the command is one read-modify-write of GPIO_EN. -/
theorem gpioenWritesTheEnableBit : Obligations.GpioenWritesTheEnableBit := by
  intro s c en role quiet old new
  refine ⟨_, exec_gpioen_gpio en role, ?_⟩
  rw [start_quiet (ops := rmwOps regGpioEn (gpioBit c) en) quiet,
    quietRun_rmw _ _ _ _ (.inr (.inr rfl)), fresh_data]
  exact ⟨Memory.read_write_same _ _ _, fun a ha => Memory.read_write_other _ _ ha, rfl⟩

/-- Settles O37: the two read-modify-writes one after the other. -/
theorem pullsSetTheControlBits : Obligations.PullsSetTheControlBits := by
  intro s c i up role quiet pulls ctl0 ctl1 new0 new1
  refine ⟨_, exec_pull pulls role, ?_⟩
  rw [start_quiet (ops := pullOps (gpioBit c) up) quiet, quietRun_pull, rmw_ctl0_rmw_ctl1,
    fresh_data]
  refine ⟨?_, Memory.read_write_same _ _ _, fun a h0 h1 => ?_, rfl⟩
  · exact (Memory.read_write_other _ new1 (by decide)).trans (Memory.read_write_same _ _ _)
  · exact (Memory.read_write_other _ new1 h1).trans (Memory.read_write_other _ _ h0)

/-- Settles O40: each register written holds its old byte but for the channel's bit. -/
theorem bitOperationsIsolateBits : Obligations.BitOperationsIsolateBits := by
  intro s c i reg old gpio quiet held which
  have isolated (b : Bool) (j : Nat) (hj : j + 4 ≠ c.val) :
      (withBit old (gpioBit c) b).getLsbD j = old.getLsbD j :=
    withBit_other old b (by simp only [gpioBit]; omega)
  rcases which with ⟨role, instr, hreg⟩ | ⟨role, ⟨en, rfl⟩, rfl⟩
  · obtain ⟨up, pulls⟩ := exists_pulls instr
    obtain ⟨t, run, ctl0, ctl1, -, -⟩ := pullsSetTheControlBits s c i up role quiet pulls
    rcases hreg with rfl | rfl
    · rw [memRead8_listed (reg := 0x73#8) held] at ctl0
      exact ⟨t, _, run, ctl0, isolated true⟩
    · rw [memRead8_listed (reg := 0x74#8) (v := old) (by rw [memRead8_frame]; exact held)] at ctl1
      exact ⟨t, _, run, ctl1, isolated up⟩
  · obtain ⟨t, run, enable, -, -⟩ := gpioenWritesTheEnableBit s c en role (quiet.mono (by decide))
    rw [memRead8_listed (reg := 0x77#8) held] at enable
    exact ⟨t, _, run, enable, isolated en⟩

/-! ## GPIOST -/

/-- GPIOST of an input in a quiet environment: the bit read is cached and answered
(41_gpio_bit_ops.md R126). -/
theorem quietRun_gpiost (s : State) (f : InFlight) (c : ChannelIx) :
    let level := (s.memRead8 regGpioDat).1.getLsbD (gpioBit c).val
    quietRun s f [.readRegister regGpioDat, .cacheLevel c] = (({ s with
      xpOut := s.xpOut ++ [.read8 s.address regGpioDat]
      draws := (s.memRead8 regGpioDat).2.draws } : State).setChan c
        { s.chan c with gpioOutputHigh := level }).respond (bit12 level) := by
  intro level
  have bit : ((s.memRead8 regGpioDat).1.setWidth 16).getLsbD (gpioBit c).val = level := by
    have : (gpioBit c).val < 16 := by omega
    simp [level, this]
  simp only [quietRun, quietOp_readRegister, quietOp_cacheLevel, bit]
  rfl

/-- Settles O43: an output is answered in S0, an input by its two micro-steps. -/
theorem gpiostAnswersTheLevel : Obligations.GpiostAnswersTheLevel := by
  refine fun s c => ⟨fun output => ?_, fun input quiet => ?_⟩
  · rw [exec_gpiost_output output, State.respond, level_word]
    rfl
  · intro dat level
    refine ⟨_, exec_gpiost_input input, ?_⟩
    rw [start_quiet (ops := [.readRegister regGpioDat, .cacheLevel c]) quiet, quietRun_gpiost,
      State.respond, level_word]
    refine ⟨fun j => ?_, rfl⟩
    exact (chan_congr rfl j).trans (chan_setChan s c j { s.chan c with gpioOutputHigh := level })

/-! ## Commands cut by BUS_ERROR -/

/-- A command whose read of a register fails ends there, and the read has changed nothing
(41_gpio_bit_ops.md R121). -/
theorem start_cut_read {s : State} {pre post : List MicroOp} {reg : RegNo} {landed : Bool}
    {rest : List Slot}
    (hs : s.script =
      List.replicate pre.length Slot.quiet ++ ⟨[], some (.error landed)⟩ :: rest) :
    let u := (quietOps s s.fresh pre).1
    s.start (pre ++ .readRegister reg :: post) =
      { (u.logRequest (.read8 u.address reg)).reject .busError with script := rest } :=
  start_cut (r := .read8 _ reg) hs rfl

/-- Settles O42: the failing read is the first micro-step of each of the commands. -/
theorem failedRegisterReadChangesNothing : Obligations.FailedRegisterReadChangesNothing := by
  intro s c i reg landed rest hs which
  obtain ⟨post, run⟩ : ∃ post, exec i s = .next (s.start (.readRegister reg :: post)) := by
    rcases which with ⟨role, instr, rfl⟩ | ⟨role, ⟨en, rfl⟩, rfl⟩ | ⟨role, rfl, rfl⟩
    · obtain ⟨up, pulls⟩ := exists_pulls instr
      exact ⟨_, exec_pull pulls role⟩
    · exact ⟨_, exec_gpioen_gpio en role⟩
    · exact ⟨_, exec_gpiost_input role⟩
  rw [run]
  exact congrArg Host.Outcome.next (start_cut_read (pre := []) hs)

/-- A pull whose third or fourth request fails ends with the chip as the read-modify-write of GPIO_CTL0
left it (41_gpio_bit_ops.md R128): the read of GPIO_CTL1 has no effect, and its write has not landed. -/
theorem start_pull_cut {s : State} {k : GpioBit} {up : Bool} {good : Nat} {landed : Bool}
    {rest : List Slot} (hgood : good = 2 ∨ good = 3)
    (hs : s.script =
      List.replicate good Slot.quiet ++ ⟨[], some (.error landed)⟩ :: rest) :
    ∃ xp draws, xp.length = s.xpOut.length + good + 1 ∧
      s.start (pullOps k up) = { (s.rmw regGpioCtl0 k true).reject .busError with
        script := rest, xpOut := xp, draws := draws } := by
  have ctl0 := quietOps_rmw s s.fresh (reg := regGpioCtl0) k true (.inl rfl)
  rcases hgood with rfl | rfl
  · have cut := start_cut_read (pre := rmwOps regGpioCtl0 k true) (reg := regGpioCtl1)
      (post := [.writeBit regGpioCtl1 k up]) hs
    rw [ctl0] at cut
    exact ⟨_, _, by simp [State.rmw], cut⟩
  · have cut := start_cut (pre := rmwOps regGpioCtl0 k true ++ [.readRegister regGpioCtl1])
      (op := .writeBit regGpioCtl1 k up) (post := []) hs rfl
    rw [quietOps_append, ctl0, quietOps, quietOps, quietOp_readRegister, performFailed_ctl1] at cut
    exact ⟨_, _, by simp [State.rmw], cut⟩

/-- Settles O41: GPIO_CTL0 has been written, and the request that fails leaves no trace at the
chip. -/
theorem pullCutByBusError : Obligations.PullCutByBusError := by
  intro s c i old0 good landed rest role instr held hgood hs
  obtain ⟨up, pulls⟩ := exists_pulls instr
  refine ⟨_, exec_pull pulls role, ?_⟩
  obtain ⟨xp, draws, length, cut⟩ := start_pull_cut (k := gpioBit c) (up := up) hgood hs
  have regs : (s.rmw regGpioCtl0 (gpioBit c) true).regs =
      Memory.write s.regs 0x73 (withBit old0 (gpioBit c) true) := by
    rw [State.rmw, memRead8_listed (reg := regGpioCtl0) held]
    rfl
  rw [cut]
  refine ⟨rfl, rfl, length, ?_, fun a ha => ?_, rfl⟩
  · exact (congrArg (Memory.read · 0x73) regs).trans (Memory.read_write_same _ _ _)
  · exact (congrArg (Memory.read · a) regs).trans (Memory.read_write_other _ _ ha)

end Sys2Proof.Machine
end

/-! # Touch detection -/

section
namespace Sys2Proof.Machine

/-! ## The debounce window -/

/-- Settles O49: the window compares as `elapsed_iff` says, and zero-extension keeps the value. -/
theorem windowElapses : Obligations.WindowElapses := by
  intro s c t deb
  have window (t : Time) :
      s.elapsed c t = true ↔ deb.setWidth 32 ≤ t - (s.chan c).lastTouchTimestamp := by
    have width : (deb.setWidth 32).toNat = deb.toNat :=
      BitVec.toNat_setWidth_of_le (by decide)
    rw [elapsed_iff, BitVec.le_def, width]
    rfl
  refine ⟨window t, ?_, fun zero => ?_⟩
  · rw [window, add_sub_cancel_left]
    exact Nat.le_refl _
  · rw [window, zero]
    exact Nat.zero_le _

/-! ## Channels of which AGG is not evaluated -/

/-- TCHCH of a legal channel is its S0, and what S0 starts (42_touch_detection.md R145). -/
theorem exec_tchch (s : State) (c : ChannelIx) :
    exec (.tchch (channelOperand c)) s = .next (queryChannel s c) := by
  simp only [exec, execTchch, withChannel_operand]

/-- Settles O52: the check of the role in S0 answers. -/
theorem tchchSkipsOutputs : Obligations.TchchSkipsOutputs := by
  intro s c output
  rw [exec_tchch, queryChannel, if_pos output]
  rfl

/-- Settles O53: the role or else the window answers in S0, both with 0. -/
theorem tchchHeldByTheWindow : Obligations.TchchHeldByTheWindow := by
  intro s c idle inside
  have shut : s.elapsed c s.now = false := by
    rw [Bool.eq_false_iff, Ne, elapsed_iff]
    exact Nat.not_le.mpr inside
  by_cases output : s.role c = .gpioOut
  · exact tchchSkipsOutputs s c output
  · rw [exec_tchch, queryChannel, if_neg output, if_pos ⟨idle, shut⟩]
    rfl

/-! ## AGG in a quiet environment -/

section
variable {s : State}

theorem aggOps_polling (h : s.useIRQ = false) : aggOps s = [.readStatus, .takeStatus] := by
  simp [aggOps, h]

theorem aggOps_latch (h : s.useIRQ = true) : aggOps s = [.takeLatch] := by
  simp [aggOps, h]

end

/-- AGG in polling mode: the status is read, its low 12 bits are taken, and the interrupt latch is
cleared (42_touch_detection.md R140). -/
theorem quietOps_polling (s : State) (f : InFlight) :
    let status := s.memRead16 0x00#8
    quietOps s f [.readStatus, .takeStatus] =
      ({ s with
          interrupted := false
          xpOut := s.xpOut ++ [.read16 s.address 0x00#8]
          draws := status.2.draws },
        { f with held := status.1, data := status.1.setWidth 12 }) := by
  simp only [quietOps, quietOp_readStatus, quietOp_takeStatus]

/-- AGG in interrupt-latch mode: the latch is taken and cleared (42_touch_detection.md R140). -/
theorem quietOps_latch (s : State) (f : InFlight) :
    quietOps s f [.takeLatch] =
      ({ s with interrupted := false }, { f with data := bit12 s.interrupted }) := rfl

/-! ## TCHALL -/

/-- TCHALL is AGG and the response (42_touch_detection.md R141). -/
theorem exec_tchall (s : State) : exec .tchall s = .next (s.start (aggOps s)) := rfl

/-- Settles O44: the two micro-steps of AGG, and the response. -/
theorem tchallPolls : Obligations.TchallPolls := by
  intro s mode quiet status
  have low : status.1.extractLsb' 0 12 = status.1.setWidth 12 :=
    (BitVec.setWidth_eq_extractLsb' (by decide)).symm
  rw [exec_tchall, aggOps_polling mode, start_quiet (ops := [.readStatus, .takeStatus]) quiet,
    quietRun_eq_respond, quietOps_polling, low]
  rfl

/-- Settles O45: the one micro-step of AGG, and the response. -/
theorem tchallReportsTheLatch : Obligations.TchallReportsTheLatch := by
  intro s mode quiet
  rw [exec_tchall, aggOps_latch mode, start_quiet (ops := [.takeLatch]) quiet, quietRun_eq_respond,
    quietOps_latch, State.respond, level_word]
  rfl

/-- TCHALL in polling mode of a status that is listed in the chip's registers. -/
theorem exec_tchall_listed {s : State} {lo hi : Byte} (mode : s.useIRQ = false)
    (quiet : s.QuietFor 2) (hlo : Memory.read s.regs 0 = some lo)
    (hhi : Memory.read s.regs 1 = some hi) :
    exec .tchall s = .next { s with
      interrupted := false
      busy := none
      script := s.script.drop 2
      rspOut := s.rspOut ++ [0#4 ++ (hi ++ lo).extractLsb' 0 12]
      xpOut := s.xpOut ++ [.read16 s.address 0x00#8] } := by
  rw [tchallPolls s mode quiet, memRead16_listed (reg := 0x00#8) hlo hhi]

/-- A quiet environment is quiet for the micro-steps that remain after the first `m`. -/
theorem State.QuietFor.drop {s t : State} {m n : Nat} (h : s.QuietFor (m + n))
    (ht : t.script = s.script.drop m) : t.QuietFor n := by
  intro slot hslot
  rw [ht, List.take_drop] at hslot
  exact h slot (List.mem_of_mem_drop hslot)

/-- Several FIREIRQ events are as one (43_interrupt_plumbing.md R161). -/
theorem applyEvents_fireIrqs (s : State) (n : Nat) :
    s.applyEvents (List.replicate (n + 1) .fireIrq) = s.fireIrq := by
  induction n generalizing s with
  | zero => rfl
  | succ n ih => exact ih s.fireIrq

/-- Settles O46: the first TCHALL leaves the chip's registers as they were in polling mode, and the
latch clear in interrupt-latch mode; the second one starts from there. -/
theorem tchallTwice : Obligations.TchallTwice := by
  refine ⟨fun s lo hi mode quiet hlo hhi => ?_, fun s n mode quiet => ?_⟩
  · exact ⟨_, _, exec_tchall_listed mode (quiet.mono (by decide)) hlo hhi,
      exec_tchall_listed mode (quiet.drop (m := 2) rfl) hlo hhi, rfl, rfl⟩
  · rw [applyEvents_fireIrqs]
    exact ⟨_, _, tchallReportsTheLatch s.fireIrq mode (quiet.mono (n := 2) (by decide)),
      tchallReportsTheLatch _ mode (quiet.drop (m := 1) rfl), rfl, rfl⟩

/-! ## A failed status read -/

/-- Settles O48: the status read is the first micro-step of both commands, and it has changed
nothing. -/
theorem failedStatusReadChangesNothing : Obligations.FailedStatusReadChangesNothing := by
  intro s landed rest i mode hs which
  obtain ⟨post, run⟩ : ∃ post, exec i s = .next (s.start (.readStatus :: post)) := by
    rcases which with rfl | ⟨c, rfl, gate⟩
    · exact ⟨[.takeStatus], by rw [exec_tchall, aggOps_polling mode]⟩
    · exact ⟨[.takeStatus, .judgeTouch c],
        by rw [exec_tchch_passes gate, aggOps_polling mode]; rfl⟩
  rw [run]
  exact congrArg Host.Outcome.next (start_cut (pre := []) (r := .read16 _ _) hs rfl)

/-! ## TCHCH when AGG is evaluated -/

/-- The judgement of S3, field by field (42_touch_detection.md R144, R145). -/
theorem judgeChannel_eq (ch : Channel) (b : Bool) (t : Time) :
    judgeChannel ch b t = { ch with
      touched := if b then .touched else .idle
      lastTouchTimestamp :=
        if b = true ∧ ch.touched = .idle then t else ch.lastTouchTimestamp } := by
  obtain ⟨role, dbv, debounce, stamp, latch, level⟩ := ch
  cases b with
  | false => rfl
  | true => cases latch <;> rfl

/-- The records after the touch of channel `c` has been judged. -/
theorem judged_records {s t : State} {c : ChannelIx} {b : Bool} {at_ : Time}
    (h : t.x = (s.setChan c (judgeChannel (s.chan c) b at_)).x) :
    t.chan c = { s.chan c with
        touched := if b then .touched else .idle
        lastTouchTimestamp := if b = true ∧ (s.chan c).touched = .idle then at_
          else (s.chan c).lastTouchTimestamp } ∧
      ∀ j, j ≠ c → t.chan j = s.chan j := by
  refine ⟨?_, fun j other => ?_⟩
  · rw [chan_congr h, chan_setChan_self, judgeChannel_eq]
  · rw [chan_congr h, chan_setChan_other s _ other]

/-- TCHCH whose gate passes, in a quiet environment (42_touch_detection.md R145): AGG leads to `u`;
the bit `b` of the aggregate that the sequencer `f` holds is judged with the sample of S0, and
answered. -/
theorem exec_tchch_quiet {s u : State} {c : ChannelIx} {ops : List MicroOp} {f : InFlight}
    {b : Bool} (gate : gatePasses s c) (hops : aggOps s = ops) (quiet : s.QuietFor (ops.length + 1))
    (agg : quietOps s s.fresh ops = (u, f)) (hx : u.x = s.x) (ht : f.t = s.now)
    (hb : f.data.getLsbD c.val = b) :
    ∃ t, exec (.tchch (channelOperand c)) s = .next t ∧
      t.chan c = { s.chan c with
        touched := if b then .touched else .idle
        lastTouchTimestamp := if b = true ∧ (s.chan c).touched = .idle then s.now
          else (s.chan c).lastTouchTimestamp } ∧
      (∀ j, j ≠ c → t.chan j = s.chan j) ∧
      t = { u with
        x := t.x, busy := none, script := s.script.drop (ops.length + 1),
        rspOut := u.rspOut ++ [if b then 0x0001#16 else 0x0000#16] } := by
  have length : (ops ++ [MicroOp.judgeTouch c]).length = ops.length + 1 := List.length_append
  have run : s.start (ops ++ [.judgeTouch c]) =
      { (u.setChan c (judgeChannel (s.chan c) b s.now)).respond (bit12 b) with
        script := s.script.drop (ops.length + 1) } := by
    rw [start_quiet (length ▸ quiet), length, quietRun_eq_respond, quietOps_append, agg, ← hb,
      ← ht, ← chan_congr hx]
    rfl
  obtain ⟨chan, others⟩ := judged_records (s := s) (t := s.start (ops ++ [.judgeTouch c]))
    (c := c) (b := b) (at_ := s.now) (by rw [run, setChan_x, ← hx]; rfl)
  refine ⟨_, hops ▸ exec_tchch_passes gate, chan, others, ?_⟩
  rw [run, State.respond, level_word]
  rfl

/-- Settles O50: the status is polled, and its bit of the channel judged. -/
theorem tchchMovesTheLatch : Obligations.TchchMovesTheLatch := by
  intro s c mode gate quiet status b
  have bit : (status.1.setWidth 12).getLsbD c.val = b := by simp [b]
  obtain ⟨t, run, chan, others, frame⟩ := exec_tchch_quiet gate (aggOps_polling mode) quiet
    (quietOps_polling s s.fresh) rfl rfl bit
  exact ⟨t, run, by rw [chan], by rw [chan], by rw [chan], others, frame⟩

/-- The bits of an aggregate in interrupt-latch mode: only channel 0 has the latch
(42_touch_detection.md R148). -/
theorem bit12_getLsbD (b : Bool) (c : ChannelIx) :
    (bit12 b).getLsbD c.val = (decide (c = 0) && b) := by
  revert b c
  decide

/-- Settles O51: the interrupt latch is taken, and its bit of the channel judged. -/
theorem tchchInInterruptMode : Obligations.TchchInInterruptMode := by
  intro s c mode gate quiet b
  exact exec_tchch_quiet gate (aggOps_latch mode) quiet (quietOps_latch s s.fresh) rfl rfl
    (bit12_getLsbD s.interrupted c)

end Sys2Proof.Machine
end

/-! # A query depends on no other channel -/

section
namespace Sys2Proof.Machine

/-! ## The channel records replaced -/

/-- The state with other channel records. -/
def State.withRecords (s : State) (y : Vector Channel 12) : State := { s with x := y }

theorem withRecords_readByteAt (s : State) (y : Vector Channel 12) (a : Nat) :
    (s.withRecords y).readByteAt a = ((s.readByteAt a).1, (s.readByteAt a).2.withRecords y) := by
  simp only [State.readByteAt, State.withRecords]
  cases Memory.read s.regs a <;> rfl

theorem withRecords_memWrite8 (s : State) (y : Vector Channel 12) (reg : RegNo) (v : Byte) :
    (s.withRecords y).memWrite8 reg v = (s.memWrite8 reg v).withRecords y := by
  simp only [State.memWrite8, State.withRecords]
  split_ifs <;> rfl

/-- What a request does at the chip has nothing to do with the channel records. -/
theorem withRecords_perform (s : State) (y : Vector Channel 12) (r : Request) :
    (s.withRecords y).perform r = ((s.perform r).1, (s.perform r).2.withRecords y) := by
  cases r with
  | read8 d reg => simp [State.perform, State.memRead8, withRecords_readByteAt]
  | read16 d reg => simp [State.perform, State.memRead16, withRecords_readByteAt]
  | write8 d reg v => simp [State.perform, withRecords_memWrite8]

theorem withRecords_land (s : State) (y : Vector Channel 12) (r : Request) (landed : Bool) :
    (s.withRecords y).land r landed = (s.land r landed).withRecords y := by
  cases r with
  | read8 d reg => rfl
  | read16 d reg => rfl
  | write8 d reg v => cases landed with
    | false => rfl
    | true => exact withRecords_memWrite8 s y reg v

theorem withRecords_performFailed (s : State) (y : Vector Channel 12) (r : Request)
    (landed : Bool) : (s.withRecords y).performFailed r landed =
      (s.performFailed r landed).withRecords y :=
  withRecords_land s y r (landed && r.mayLand)

/-- `rst` gives every channel its reset record, whatever the records were (10_state.md R45). -/
theorem withRecords_rst (s : State) (y : Vector Channel 12) (landed : Bool) :
    (s.withRecords y).rst landed = s.rst landed := by
  have outstanding : (s.withRecords y).outstanding = s.outstanding := rfl
  unfold State.rst
  rw [outstanding]
  cases s.outstanding with
  | none => rfl
  | some r =>
    simp only [withRecords_land]
    rfl

/-- The micro-steps of a TCHCH, in either mode (42_touch_detection.md R140, R145). -/
def queryOps (c : ChannelIx) : List MicroOp := [.readStatus, .takeStatus, .takeLatch, .judgeTouch c]

theorem aggOps_judgeTouch_subset (s : State) (c : ChannelIx) :
    aggOps s ++ [.judgeTouch c] ⊆ queryOps c := by
  unfold aggOps
  split <;> simp [queryOps]

/-! ## States that differ in other channels only -/

/-- `u` is `s` but for the records of channels other than `c`. -/
inductive OthersDiffer (c : ChannelIx) (s : State) : State → Prop where
  | intro (y : Vector Channel 12) : (s.withRecords y).chan c = s.chan c →
      OthersDiffer c s (s.withRecords y)

namespace OthersDiffer
variable {c : ChannelIx} {s u : State}

theorem of_chan {v : State} {y : Vector Channel 12} (hy : (s.withRecords y).chan c = s.chan c)
    (hv : v.chan c = s.chan c) : OthersDiffer c v (v.withRecords y) :=
  .intro y (hy.trans hv.symm)

theorem refl (c : ChannelIx) (s : State) : OthersDiffer c s s := .intro s.x rfl

theorem chan (h : OthersDiffer c s u) : u.chan c = s.chan c := by
  obtain ⟨_, hy⟩ := h
  exact hy

theorem applyEvent (h : OthersDiffer c s u) (e : Event) :
    OthersDiffer c (s.applyEvent e) (u.applyEvent e) := by
  obtain ⟨y, hy⟩ := h
  cases e with
  | fireIrq => exact .intro y hy
  | chipByte reg v => exact .intro y hy
  | chipReset => exact .intro y hy
  | setNow v => exact .intro y hy
  | rst landed =>
    change OthersDiffer c (s.rst landed) ((s.withRecords y).rst landed)
    rw [withRecords_rst]
    exact .refl c _
  | busWrite reg v =>
    change OthersDiffer c (s.memWrite8 reg v) ((s.withRecords y).memWrite8 reg v)
    rw [withRecords_memWrite8]
    exact of_chan hy (chan_congr (by rw [memWrite8_frame]) c)

theorem applyEvents (h : OthersDiffer c s u) (es : List Event) :
    OthersDiffer c (s.applyEvents es) (u.applyEvents es) := by
  induction es generalizing s u with
  | nil => exact h
  | cons e es ih => exact ih (h.applyEvent e)

theorem busy (h : OthersDiffer c s u) : u.busy = s.busy := by
  obtain ⟨_, -⟩ := h
  rfl

theorem script (h : OthersDiffer c s u) : u.script = s.script := by
  obtain ⟨_, -⟩ := h
  rfl

theorem nextSlot (h : OthersDiffer c s u) : u.nextSlot = s.nextSlot := by
  rw [State.nextSlot, h.script, State.nextSlot]

theorem arrive (h : OthersDiffer c s u) : OthersDiffer c s.arrive u.arrive := by
  have drop : OthersDiffer c s.dropSlot u.dropSlot := by
    obtain ⟨y, hy⟩ := h
    exact .intro y hy
  rw [State.arrive, State.arrive, h.nextSlot]
  exact drop.applyEvents _

theorem send (h : OthersDiffer c s u) (w : ResponseWord) :
    OthersDiffer c (s.send w) (u.send w) := by
  obtain ⟨y, hy⟩ := h
  exact .intro y hy

theorem withBusy (h : OthersDiffer c s u) (b : Option InFlight) :
    OthersDiffer c { s with busy := b } { u with busy := b } := by
  obtain ⟨y, hy⟩ := h
  exact .intro y hy

theorem setChan (h : OthersDiffer c s u) (v : Channel) :
    OthersDiffer c (s.setChan c v) (u.setChan c v) := by
  obtain ⟨y, hy⟩ := h
  exact .intro (s := s.setChan c v) (y.set c.val v)
    ((chan_setChan_self (s.withRecords y) c v).trans (chan_setChan_self s c v).symm)

theorem accept (h : OthersDiffer c s u) (ops : List MicroOp) :
    OthersDiffer c (s.accept ops) (u.accept ops) := by
  obtain ⟨y, hy⟩ := h
  exact .intro y hy

theorem logRequest (h : OthersDiffer c s u) (r : Request) :
    OthersDiffer c (s.logRequest r) (u.logRequest r) := by
  obtain ⟨y, hy⟩ := h
  exact .intro y hy

end OthersDiffer

/-! ## The micro-steps of a query -/

section
variable {c : ChannelIx} {s u : State} {op : MicroOp}

theorem othersDiffer_opRequest (h : OthersDiffer c s u) (f : InFlight) (hop : op ∈ queryOps c) :
    opRequest u f op = opRequest s f op := by
  obtain ⟨_, -⟩ := h
  simp only [queryOps, List.mem_cons, List.not_mem_nil, or_false] at hop
  rcases hop with rfl | rfl | rfl | rfl <;> rfl

/-- AGG touches no record, and the judgement of `c` reads and writes that of `c` only. -/
theorem othersDiffer_finishOp (h : OthersDiffer c s u) (f : InFlight) (hop : op ∈ queryOps c)
    (rest : List MicroOp) (d : BitVec 16) :
    OthersDiffer c (finishOp s f op rest d) (finishOp u f op rest d) := by
  have judge : OthersDiffer c (finishOp s f (.judgeTouch c) rest d)
      (finishOp u f (.judgeTouch c) rest d) := by
    simp only [finishOp, opEffect, h.chan]
    exact (h.setChan _).withBusy _
  obtain ⟨y, hy⟩ := h
  simp only [queryOps, List.mem_cons, List.not_mem_nil, or_false] at hop
  rcases hop with rfl | rfl | rfl | rfl
  · exact .intro y hy
  · exact .intro y hy
  · exact .intro y hy
  · exact judge

theorem othersDiffer_answerOp (h : OthersDiffer c s u) (f : InFlight) (hop : op ∈ queryOps c)
    (rest : List MicroOp) (r : Request) (a : Answer) :
    OthersDiffer c (answerOp s f op rest r a) (answerOp u f op rest r a) := by
  obtain ⟨y, hy⟩ := h
  cases a with
  | ok =>
    rw [answerOp_ok, answerOp_ok, withRecords_perform]
    exact othersDiffer_finishOp (.of_chan hy ((perform_chipMoves s r).env.chan c)) f hop rest _
  | error landed =>
    rw [answerOp_error, answerOp_error, withRecords_performFailed]
    exact (OthersDiffer.of_chan hy ((performFailed_chipMoves s r landed).env.chan c)).send _

theorem othersDiffer_microStep (h : OthersDiffer c s u) (f : InFlight) (hop : op ∈ queryOps c)
    (rest : List MicroOp) : OthersDiffer c (microStep s f op rest) (microStep u f op rest) := by
  have arrive := h.arrive
  unfold microStep
  dsimp only [State.arrive] at arrive ⊢
  rw [h.nextSlot] at arrive ⊢
  generalize s.dropSlot.applyEvents s.nextSlot.events = s' at arrive ⊢
  generalize u.dropSlot.applyEvents s.nextSlot.events = u' at arrive ⊢
  rw [arrive.busy, othersDiffer_opRequest arrive f hop]
  cases s'.busy with
  | none => exact arrive
  | some g =>
    cases opRequest s' f op with
    | none => exact othersDiffer_finishOp arrive f hop rest _
    | some r =>
      cases s.nextSlot.answer with
      | none => exact (arrive.logRequest r).withBusy _
      | some a => exact othersDiffer_answerOp (arrive.logRequest r) f hop rest r a

/-- A query goes the same way from both states, micro-step by micro-step. -/
theorem othersDiffer_runMicro (n : Nat) (h : OthersDiffer c s u)
    (ops : ∀ f, s.busy = some f → f.todo ⊆ queryOps c) :
    OthersDiffer c (runMicro n s) (runMicro n u) := by
  induction n generalizing s u with
  | zero => exact h
  | succ n ih =>
    cases hb : s.busy with
    | none => rwa [runMicro_idle hb, runMicro_idle (h.busy.trans hb)]
    | some f =>
      have hb' : u.busy = some f := h.busy.trans hb
      cases ho : f.outstanding with
      | some r => rwa [runMicro_waiting hb ho, runMicro_waiting hb' ho]
      | none =>
        cases ht : f.todo with
        | nil =>
          rw [runMicro_done hb ho ht, runMicro_done hb' ho ht]
          exact h.send _
        | cons op rest =>
          have hop : op ∈ queryOps c := ops f hb (by simp [ht])
          rw [runMicro_step hb ho ht, runMicro_step hb' ho ht]
          exact ih (othersDiffer_microStep h f hop rest) fun g hg =>
            List.Subset.trans (microStep_todo_subset ht hg) (ops f hb)

theorem othersDiffer_start {ops : List MicroOp} (h : OthersDiffer c s u)
    (hops : ops ⊆ queryOps c) : OthersDiffer c (s.start ops) (u.start ops) :=
  othersDiffer_runMicro (ops.length + 1) (h.accept ops) fun f hf => by cases hf; exact hops

/-- S0 of a TCHCH looks at the record of its own channel only (42_touch_detection.md R145). -/
theorem othersDiffer_queryChannel (h : OthersDiffer c s u) :
    OthersDiffer c (queryChannel s c) (queryChannel u c) := by
  have role : u.role c = s.role c := congrArg Channel.role h.chan
  have same : u.now = s.now ∧ u.debounceDefault = s.debounceDefault ∧ aggOps u = aggOps s := by
    obtain ⟨_, -⟩ := h
    exact ⟨rfl, rfl, rfl⟩
  obtain ⟨now, debounce, agg⟩ := same
  unfold queryChannel
  rw [role, h.chan, elapsed_congr h.chan debounce, now, agg]
  split_ifs
  · exact h.send _
  · exact h.send _
  · exact othersDiffer_start h (aggOps_judgeTouch_subset s c)

end

/-- Settles O55: S0 and every micro-step lead from states that differ in other channels to such
states. -/
theorem tchchIgnoresOtherChannels : Obligations.TchchIgnoresOtherChannels := by
  intro s y c t u same first second
  have differ : OthersDiffer c (queryChannel s c) (queryChannel (s.withRecords y) c) :=
    othersDiffer_queryChannel (.intro y same)
  cases (exec_tchch s c).symm.trans first
  cases (exec_tchch (s.withRecords y) c).symm.trans second
  refine ⟨differ.chan, ?_⟩
  generalize queryChannel s c = t at differ ⊢
  generalize queryChannel (s.withRecords y) c = u at differ ⊢
  obtain ⟨_, -⟩ := differ
  exact ⟨rfl, rfl, rfl, rfl, rfl⟩

end Sys2Proof.Machine
end

/-! # Interrupt plumbing -/

section
namespace Sys2Proof.Machine

/-- USEIRQ sets the mode flag and answers 0 (43_interrupt_plumbing.md R160). -/
theorem exec_useirq (en : Bool) (s : State) :
    exec (.useirq en) s = .next ((s.setUseIRQ en).respond 0#12) := rfl

/-- Settles O56: `setUseIRQ` writes the mode flag only, and the response is the zero word. -/
theorem useirqSetsTheMode : Obligations.UseirqSetsTheMode := by
  intro s en
  rw [exec_useirq]
  rfl

/-- Settles O21: a block at rest takes the event that comes first, and FIREIRQ sets the latch. -/
theorem fireirqSetsTheLatch : Obligations.FireirqSetsTheLatch := by
  intro s rest hi atRest
  exact step_event_at_rest hi atRest

/-! ## FIREIRQ just before a micro-step -/

section
variable {op : MicroOp} {ans : Option Answer} {sc : List Slot}

/-- A micro-step that requests nothing runs on the state in which FIREIRQ has set the latch
(43_interrupt_plumbing.md R165). -/
theorem microStep_fireIrq (silent : ∀ s f, opRequest s f op = none) (s : State) (f g : InFlight)
    (rest : List MicroOp) :
    microStep (s.book (some g) (⟨[.fireIrq], ans⟩ :: sc)) f op rest =
      (opEffect s.fireIrq f op).book
        (some { opSequencer s.fireIrq f 0#16 op with todo := rest, outstanding := none }) sc := by
  have latched : microStep (s.book (some g) (⟨[.fireIrq], ans⟩ :: sc)) f op rest =
      finishOp (s.fireIrq.book (some g) sc) f op rest 0#16 :=
    microStep_silent (g := g) rfl (silent _ f)
  rw [latched, finishOp, book_opEffect, book_opSequencer]
  rfl

/-- A command after its first micro-steps `pre`, which were quiet: `tail` is still to run. -/
theorem start_quietOps {s : State} (pre tail : List MicroOp)
    (hs : s.script = List.replicate pre.length Slot.quiet ++ sc) :
    s.start (pre ++ tail) = runMicro (tail.length + 1) ((quietOps s s.fresh pre).1.book
      (some { (quietOps s s.fresh pre).2 with todo := tail, outstanding := none }) sc) := by
  have quiet : ∀ slot ∈ s.script.take pre.length, slot = Slot.quiet := by
    rw [hs, List.take_left' List.length_replicate]
    exact fun slot => List.eq_of_mem_replicate
  have start : s.start (pre ++ tail) = runMicro (pre.length + (tail.length + 1))
      (s.book (some { s.fresh with todo := pre ++ tail, outstanding := none }) s.script) := by
    rw [← Nat.add_assoc, ← List.length_append]
    rfl
  rw [start, runMicro_quietOps pre _ s s.fresh s.script _ quiet, hs,
    List.drop_left' List.length_replicate]

/-- A command that is quiet up to its last micro-step, which requests nothing and before which
FIREIRQ falls. -/
theorem start_fireIrq_last (silent : ∀ s f, opRequest s f op = none) {s : State}
    {pre : List MicroOp}
    (hs : s.script = List.replicate pre.length Slot.quiet ++ ⟨[.fireIrq], ans⟩ :: sc) :
    let u := quietOps s s.fresh pre
    s.start (pre ++ [op]) =
      { (opEffect u.1.fireIrq u.2 op).respond (opSequencer u.1.fireIrq u.2 0#16 op).data with
        script := sc } := by
  intro u
  rw [start_quietOps pre [op] hs, List.length_singleton, runMicro_step rfl rfl rfl,
    microStep_fireIrq silent, opEffect_todo, opSequencer_todo, runMicro_done rfl rfl rfl]
  rfl

end

/-! ## FIREIRQ against AGG -/

/-- TCHALL in a quiet environment ends, in either mode, and leaves the inputs to come. -/
theorem exec_tchall_idle {s : State} (quiet : s.QuietFor 2) :
    ∃ t, exec .tchall s = .next t ∧ t.busy = none ∧ t.inputs = s.inputs := by
  cases mode : s.useIRQ with
  | false => exact ⟨_, tchallPolls s mode quiet, rfl, rfl⟩
  | true => exact ⟨_, tchallReportsTheLatch s mode (quiet.mono (by decide)), rfl, rfl⟩

/-- Settles O47: an event before A1 is in the latch that A1 takes; an event after the command finds
an idle block; and A2 of polling mode clears the latch that an event before it has set, with the
status of A1 in hand. -/
theorem fireirqAgainstAggregate : Obligations.FireirqAgainstAggregate := by
  refine ⟨fun s ans rest mode hs => ?_, fun s rest idle quiet hi => ?_,
    fun s ans rest mode hs => ?_⟩
  · have run := start_fireIrq_last (op := .takeLatch) (fun _ _ => rfl) (pre := []) hs
    rw [exec_tchall, aggOps_latch mode]
    exact ⟨_, congrArg _ run, congrArg (fun w => s.rspOut ++ [w]) (level_word true), rfl⟩
  · obtain ⟨t, run, done, left⟩ :=
      exec_tchall_idle (s := { s with inputs := .event .fireIrq :: rest }) quiet
    have accepted := stepRunsDecodedInstruction s 0x100000#24 _ .tchall idle hi (by decide)
    exact ⟨t, _, accepted.trans run, step_event done left, rfl⟩
  · have run := start_fireIrq_last (op := .takeStatus) (fun _ _ => rfl) (pre := [.readStatus]) hs
    have low : (s.memRead16 0x00#8).1.extractLsb' 0 12 = (s.memRead16 0x00#8).1.setWidth 12 :=
      (BitVec.setWidth_eq_extractLsb' (by decide)).symm
    simp only [quietOps, quietOp_readStatus] at run
    rw [exec_tchall, aggOps_polling mode, low]
    exact ⟨_, congrArg _ run, rfl, rfl⟩

end Sys2Proof.Machine
end

/-! # Debounce configuration -/

section
namespace Sys2Proof.Machine

/-! ## The effective debounce value (10_state.md R22) -/

section
variable {s : State} {c : ChannelIx}

theorem deb_own (h : (s.chan c).dbv = true) : s.deb c = (s.chan c).debounce := if_pos h

theorem deb_default (h : (s.chan c).dbv = false) : s.deb c = s.debounceDefault := by
  simp [State.deb, h]

end

/-! ## The device-wide value -/

/-- SETDBD writes the device-wide value and answers 0 (44_debounce_config.md R170). -/
theorem exec_setdbd (v : Millis) (s : State) :
    exec (.setdbd v) s = .next (({ s with debounceDefault := v } : State).respond 0#12) := rfl

/-- Settles O57: the channel records stay, so a channel of its own value keeps it, and any other
follows the new device-wide value. -/
theorem setdbdSetsTheDefault : Obligations.SetdbdSetsTheDefault := by
  intro s v
  refine ⟨_, exec_setdbd v s, rfl, fun c => ?_⟩
  have kept : (({ s with debounceDefault := v } : State).respond 0#12).chan c = s.chan c :=
    chan_congr rfl c
  cases own : (s.chan c).dbv with
  | true => rw [if_pos rfl, deb_own own, deb_own (kept ▸ own), kept]
  | false => exact deb_default (kept ▸ own)

/-! ## A channel's own value -/

/-- No command with a `ch` operand gets past a channel that does not exist
(60_exceptions.md R182). -/
theorem withChannel_bad (s : State) {ch : BitVec 4} (k : ChannelIx → State) (h : 11 < ch.toNat) :
    s.withChannel ch k = s.reject .badChannel := by
  simp only [State.withChannel, channelOf_eq_none h]

/-- SETDBC of a legal channel writes its value and its valid bit (44_debounce_config.md R171). -/
theorem exec_setdbc (s : State) (c : ChannelIx) (v : Millis) :
    exec (.setdbc (channelOperand c) v) s =
      .next ((s.setChan c { s.chan c with debounce := v, dbv := true }).respond 0#12) := by
  simp only [exec, execSetdbc, withChannel_operand]

/-- CLRDBC of a legal channel clears its valid bit (44_debounce_config.md R172). -/
theorem exec_clrdbc (s : State) (c : ChannelIx) :
    exec (.clrdbc (channelOperand c)) s =
      .next ((s.setChan c { s.chan c with dbv := false }).respond 0#12) := by
  simp only [exec, execClrdbc, withChannel_operand]

theorem exec_setdbc_bad (s : State) {ch : BitVec 4} (v : Millis) (h : 11 < ch.toNat) :
    exec (.setdbc ch v) s = .next (s.reject .badChannel) :=
  congrArg _ (withChannel_bad s _ h)

theorem exec_clrdbc_bad (s : State) {ch : BitVec 4} (h : 11 < ch.toNat) :
    exec (.clrdbc ch) s = .next (s.reject .badChannel) :=
  congrArg _ (withChannel_bad s _ h)

/-- The records after a command that has replaced one of them and answered. -/
theorem chan_setChan_respond (s : State) (c j : ChannelIx) (v : Channel) (d : Mask12) :
    ((s.setChan c v).respond d).chan j = if j = c then v else s.chan j :=
  (chan_congr (respond_x _ d) j).trans (chan_setChan s c j v)

theorem chan_setChan_respond_self (s : State) (c : ChannelIx) (v : Channel) (d : Mask12) :
    ((s.setChan c v).respond d).chan c = v :=
  (chan_setChan_respond s c c v d).trans (if_pos rfl)

/-- Settles O58: the record written has its valid bit set, so its value is the effective one. -/
theorem setdbcOverrides : Obligations.SetdbcOverrides := by
  intro s c v
  have record := chan_setChan_respond_self s c { s.chan c with debounce := v, dbv := true } 0#12
  refine ⟨_, exec_setdbc s c v, fun j => chan_setChan_respond s c j _ _, ?_, rfl,
    fun _ bad => exec_setdbc_bad s v bad⟩
  rw [deb_own (by rw [record]), record]

/-- Settles O59: the record written has its valid bit clear, so the device-wide value, which the
command keeps, is the effective one. -/
theorem clrdbcRemovesTheOverride : Obligations.ClrdbcRemovesTheOverride := by
  intro s c
  have record := chan_setChan_respond_self s c { s.chan c with dbv := false } 0#12
  refine ⟨_, exec_clrdbc s c, fun j => chan_setChan_respond s c j _ _, ?_, rfl,
    fun _ bad => exec_clrdbc_bad s bad⟩
  exact deb_default (by rw [record])

end Sys2Proof.Machine
end

/-! # Exceptions -/

section
namespace Sys2Proof.Machine

/-! ## No command and no step stops the machine -/

/-- Every command has its meaning as a next state: a failure is a status code of the response
(60_exceptions.md R180). -/
theorem exec_proceeds (i : Instr) (s : State) : Proceeds (exec i s) := by
  cases i <;> exact ⟨_, rfl⟩

/-- Settles O8: of all moves only a word that decodes is left to `exec`. -/
theorem nothingStopsTheMachine : Obligations.NothingStopsTheMachine := by
  refine ⟨exec_proceeds, fun s => ?_⟩
  unfold step
  cases nextMove s with
  | settled t => exact ⟨t, rfl⟩
  | command w t =>
    dsimp only
    cases decode w with
    | ok i => exact exec_proceeds i t
    | error e => exact ⟨rejectIllegal t, rfl⟩

/-! ## A channel that does not exist -/

/-- A command with a `ch` operand looks at nothing before it (60_exceptions.md R182, R190). -/
theorem exec_withChannel {i : Instr} {ch : BitVec 4} (h : i.channel? = some ch) (s : State) :
    ∃ k : ChannelIx → State, exec i s = .next (s.withChannel ch k) := by
  cases i with
  | tchall | useirq | setdbd => cases h
  | tchch | settype | setdbc | clrdbc | pullup | pulldn | gpioen | gpiost =>
    cases h
    exact ⟨_, rfl⟩

/-- Settles O10: the check of the channel is the first one, whatever the command does next. -/
theorem badChannelIsRejected : Obligations.BadChannelIsRejected := by
  intro s i ch h bad
  obtain ⟨k, e⟩ := exec_withChannel h s
  rw [e, withChannel_bad s k bad]
  rfl

/-! ## SETTYPE refused -/

section
variable {s : State} {c : ChannelIx} {r : Role}

/-- SETTYPE of a legal channel is the rest of its S0 (40_channel_role_packer.md R100). -/
theorem exec_settype (s : State) (c : ChannelIx) (code : BitVec 2) :
    exec (.settype (channelOperand c) code) s = .next (assignType s code c) := by
  simp only [exec, execSettype, withChannel_operand]

theorem assignType_badRole (s : State) (c : ChannelIx) :
    assignType s 3#2 c = s.reject .badRole := rfl

theorem assignType_sensorOnly (h : c.val < 4 ∧ r ≠ .sensor) :
    assignType s r.code c = s.reject .sensorOnly := by
  simp only [assignType, roleOf_code, if_pos h]

theorem assignType_layout (h : ¬ (c.val < 4 ∧ r ≠ .sensor))
    (gap : ¬ Contiguous (roleUpdate s.role c r)) :
    assignType s r.code c = s.reject .layout := by
  have bad : layoutOk s.role c r = false := decide_eq_false gap
  simp only [assignType, roleOf_code, if_neg h, if_pos bad]

end

/-- Settles O30: one refusal for each check of S0, in the order of the checks. -/
theorem settypeRefusesInOrder : Obligations.SettypeRefusesInOrder := by
  intro s c code
  refine ⟨?_, ?_⟩
  · rintro rfl
    rw [exec_settype, assignType_badRole]
    rfl
  · rintro r rfl
    refine ⟨fun sensorOnly => ?_, fun passed gap => ?_⟩
    · rw [exec_settype, assignType_sensorOnly sensorOnly]
      rfl
    · rw [exec_settype, assignType_layout passed gap]
      rfl

/-! ## A channel of the wrong role -/

section
variable {s : State} {c : ChannelIx}

theorem exec_pull_wrongRole {i : Instr} {up : Bool} (pulls : Pulls i c up)
    (h : s.role c ≠ .gpioIn) : exec i s = .next (s.reject .wrongRole) := by
  rcases pulls with ⟨rfl, rfl⟩ | ⟨rfl, rfl⟩
  · simp only [exec, execPullup, withChannel_operand, pullChannel, if_neg h]
  · simp only [exec, execPulldn, withChannel_operand, pullChannel, if_neg h]

theorem exec_gpiost_sensor (h : s.role c = .sensor) :
    exec (.gpiost (channelOperand c)) s = .next (s.reject .wrongRole) := by
  simp only [exec, execGpiost, withChannel_operand, statusChannel, h]

end

/-- Settles O11: the pulls and GPIOST refuse, GPIOEN and TCHCH answer OK. -/
theorem wrongRoleIsRejected : Obligations.WrongRoleIsRejected := fun s c =>
  ⟨fun noInput => ⟨exec_pull_wrongRole (.inl ⟨rfl, rfl⟩) noInput,
      exec_pull_wrongRole (.inr ⟨rfl, rfl⟩) noInput⟩,
    exec_gpiost_sensor, fun sensor en => gpioenIgnoresSensors s c en sensor, tchchSkipsOutputs s c⟩

end Sys2Proof.Machine
end

/-! # Reset of the block, and the host's boot sequence -/

section
namespace Sys2Proof.Machine

/-! ## `rst` at the chip -/

/-- Without a write that lands `rst` resets the block and does nothing else
(70_reset_and_hazards.md R210, R211). -/
theorem rst_nothing_lands {s : State} {landed : Bool}
    (h : landed = false ∨ ∀ d reg v, s.outstanding ≠ some (.write8 d reg v)) :
    s.rst landed = s.resetBlock := by
  unfold State.rst
  cases ho : s.outstanding with
  | none => rfl
  | some r =>
    refine congrArg State.resetBlock ?_
    rcases h with rfl | noWrite
    · exact land_false s r
    · cases r with
      | read8 d reg => rfl
      | read16 d reg => rfl
      | write8 d reg v => exact absurd ho (noWrite d reg v)

/-- An outstanding write that lands is at the chip as one that is answered
(70_reset_and_hazards.md R211). -/
theorem rst_lands {s : State} {d : BitVec 7} {reg : RegNo} {v : Byte}
    (h : s.outstanding = some (.write8 d reg v)) : s.rst true = (s.memWrite8 reg v).resetBlock := by
  simp only [State.rst, h, State.land, if_true]

/-- Settles O17: a block at rest takes the event, and `rst` resets the block. -/
theorem rstResetsTheBlockOnly : Obligations.RstResetsTheBlockOnly := by
  intro s landed rest hi atRest
  have step : step s = .next (({ s with inputs := rest } : State).rst landed) :=
    step_event_at_rest hi atRest
  have frame := rst_frame { s with inputs := rest } landed
  refine ⟨_, step, fun c => ?reset, frame.trans (by rw [frame]; rfl), fun still => ?still, ?lands⟩
  case reset =>
    rw [frame]
    exact chan_resetBlock s c
  case still =>
    rw [rst_nothing_lands (s := { s with inputs := rest }) still]
    exact ⟨rfl, rfl, rfl⟩
  case lands =>
    rintro d reg v rfl ho
    rw [rst_lands (s := { s with inputs := rest }) ho]
    exact memWrite8_congr (s := s) (t := { s with inputs := rest }) rfl rfl rfl reg v

/-! ## The threshold fan-out -/

theorem thresholdWrites_registers (touch release : Byte) :
    (thresholdWrites touch release).map Prod.fst =
      allChannels.flatMap fun i => [regTouchThreshold i, regReleaseThreshold i] := rfl

/-- No two of the thresholds' registers are the same (20_memory.md R60). -/
theorem thresholdWrites_nodup (touch release : Byte) :
    ((thresholdWrites touch release).map Prod.fst).Nodup := by
  rw [thresholdWrites_registers]
  decide

/-- Settles O28: each channel contributes its two writes, and the 24 registers are listed. -/
theorem thresholdFanOut : Obligations.ThresholdFanOut := by
  intro touch release
  have all : ∀ i : ChannelIx, i ∈ allChannels := by decide
  have mem {i : ChannelIx} {w : RegNo × Byte}
      (h : w ∈ [(regTouchThreshold i, touch), (regReleaseThreshold i, release)]) :
      w ∈ thresholdWrites touch release :=
    List.mem_flatMap.mpr ⟨i, all i, h⟩
  refine ⟨rfl, fun i => ⟨mem (.head _), mem (.tail _ (.head _))⟩,
    thresholdWrites_nodup touch release, fun battery => ⟨battery ++ [(regEcr, ecrValue 12)], ?_⟩⟩
  rw [bootProgramming, List.append_assoc]

/-! ## What the host writes -/

/-- The sequence after a right readback of Config2 (70_reset_and_hazards.md R218 to R221). -/
theorem hostBoot_succeeds {s : State} {es : List Event} (battery : List (RegNo × Byte))
    (h : (s.bootReadback es).1 = config2Reset) :
    s.hostBoot battery es =
      (true, ((s.bootReadback es).2.busWrites (bootProgramming battery)).rst false) := by
  simp [State.hostBoot, bootSucceeds, h]

/-- Nothing follows a wrong readback (70_reset_and_hazards.md R217). -/
theorem hostBoot_fails {s : State} {es : List Event} (battery : List (RegNo × Byte))
    (h : (s.bootReadback es).1 ≠ config2Reset) :
    s.hostBoot battery es = (false, (s.bootReadback es).2) := by
  simp [State.hostBoot, bootSucceeds, h]

theorem bootWrites_right (battery : List (RegNo × Byte)) :
    bootWrites battery config2Reset = bootOpening ++ bootProgramming battery := by
  simp [bootWrites, bootSucceeds]

theorem bootWrites_wrong (battery : List (RegNo × Byte)) {config2 : Byte}
    (h : config2 ≠ config2Reset) : bootWrites battery config2 = bootOpening := by
  simp [bootWrites, bootSucceeds, h]

/-- Whatever the readback, the opening comes first (70_reset_and_hazards.md R215, R216). -/
theorem bootWrites_take (battery : List (RegNo × Byte)) (config2 : Byte) :
    (bootWrites battery config2).take 2 = bootOpening :=
  List.take_left' rfl

/-- Settles O27: the writes after the opening are the programming of the chip, or none. -/
theorem failedBootWritesTwice : Obligations.FailedBootWritesTwice := by
  intro s battery es v writes read
  have opened : read = (s.bootReadback es).2 := by
    simp only [read, writes, bootWrites_take]
    rfl
  rw [opened]
  refine ⟨fun right => ?_,
    fun wrong => ⟨hostBoot_fails battery wrong, bootWrites_wrong battery wrong⟩⟩
  have programming : writes.drop 2 = bootProgramming battery := by
    simp only [writes]
    rw [right]
    exact (congrArg _ (bootWrites_right battery)).trans (List.drop_left' rfl)
  rw [programming]
  exact hostBoot_succeeds battery right

/-! ## What the boot sequence leaves at the chip -/

/-- The bytes stored one after the other. -/
def Memory.writeAll (m : List Host.Cell) (ws : List (RegNo × Byte)) : List Host.Cell :=
  ws.foldl (fun m w => Memory.write m w.1.toNat w.2) m

theorem Memory.writeAll_append (m : List Host.Cell) (ws vs : List (RegNo × Byte)) :
    Memory.writeAll m (ws ++ vs) = Memory.writeAll (Memory.writeAll m ws) vs :=
  List.foldl_append

theorem Memory.read_writeAll_other {ws : List (RegNo × Byte)} {reg : RegNo}
    (h : ∀ w ∈ ws, w.1 ≠ reg) (m : List Host.Cell) :
    Memory.read (Memory.writeAll m ws) reg.toNat = Memory.read m reg.toNat := by
  induction ws generalizing m with
  | nil => rfl
  | cons w ws ih =>
    refine (ih (fun v hv => h v (List.mem_cons_of_mem _ hv)) _).trans ?_
    exact Memory.read_write_other _ _ fun e => h w (by simp) (BitVec.eq_of_toNat_eq e.symm)

/-- Of bytes stored in different registers each is read back. -/
theorem Memory.read_writeAll_mem {ws : List (RegNo × Byte)} {w : RegNo × Byte} (h : w ∈ ws)
    (nodup : (ws.map Prod.fst).Nodup) (m : List Host.Cell) :
    Memory.read (Memory.writeAll m ws) w.1.toNat = some w.2 := by
  induction ws generalizing m with
  | nil => cases h
  | cons v ws ih =>
    obtain ⟨once, nodup⟩ := List.nodup_cons.mp nodup
    rcases List.mem_cons.mp h with rfl | h
    · have unchanged : ∀ v ∈ ws, v.1 ≠ w.1 := fun v hv e => once (e ▸ List.mem_map_of_mem hv)
      exact (read_writeAll_other unchanged _).trans (read_write_same _ _ _)
    · exact ih h nodup _

/-- The ECR may be written while electrodes run (70_reset_and_hazards.md R225). -/
theorem memWrite8_ecr (s : State) (v : Byte) :
    s.memWrite8 regEcr v = { s with regs := Memory.write s.regs regEcr.toNat v } :=
  memWrite8_plain s v (by decide) (by decide) (by decide) (by decide) (by decide)

/-- The opening leaves Config2 at its reset value and the electrodes stopped
(70_reset_and_hazards.md R215, R216). -/
theorem bootOpening_chip (s : State) :
    (s.busWrites bootOpening).Stopped ∧
      Memory.read (s.busWrites bootOpening).regs regConfig2.toNat = some config2Reset := by
  have opening : s.busWrites bootOpening = s.resetChip.memWrite8 regEcr 0x00#8 := rfl
  rw [opening, memWrite8_ecr]
  exact ⟨Memory.read_write_same _ _ _, Memory.read_write_other _ _ (by decide)⟩

/-- Bytes that the chip changes by itself in other registers leave a register alone. -/
theorem read_chipBytes_other {es : List Event} {r : RegNo}
    (h : ∀ e ∈ es, ∃ reg v, e = .chipByte reg v ∧ reg ≠ r) (s : State) :
    Memory.read (s.applyEvents es).regs r.toNat = Memory.read s.regs r.toNat := by
  induction es generalizing s with
  | nil => rfl
  | cons e es ih =>
    obtain ⟨reg, v, rfl, other⟩ := h e (by simp)
    refine (ih (fun e' he => h e' (List.mem_cons_of_mem _ he)) _).trans ?_
    exact Memory.read_write_other _ _ fun e => other (BitVec.eq_of_toNat_eq e.symm)

theorem thresholdRegister_range {touch release : Byte} {w : RegNo × Byte}
    (h : w ∈ thresholdWrites touch release) : 0x41 ≤ w.1.toNat ∧ w.1.toNat ≤ 0x58 := by
  have range : ∀ reg ∈ allChannels.flatMap fun i => [regTouchThreshold i, regReleaseThreshold i],
      0x41 ≤ reg.toNat ∧ reg.toNat ≤ 0x58 := by decide
  exact range w.1 (thresholdWrites_registers touch release ▸ List.mem_map_of_mem h)

theorem batteryRegister_range {reg : RegNo} (h : batteryRegister reg = true) :
    (0x2B ≤ reg.toNat ∧ reg.toNat ≤ 0x35) ∨ (0x5B ≤ reg.toNat ∧ reg.toNat ≤ 0x5D) :=
  of_decide_eq_true h

section
variable {battery : List (RegNo × Byte)}

/-- Steps 4 and 5 write no register above Config2: neither the ECR nor GPIO_EN nor a register with a
side effect (20_memory.md R60, R63). -/
theorem configWrites_ne (hb : ∀ w ∈ battery, batteryRegister w.1 = true) {w : RegNo × Byte}
    (h : w ∈ thresholdWrites 12#8 6#8 ++ battery) {reg : RegNo} (above : 0x5D < reg.toNat) :
    w.1 ≠ reg := by
  rintro rfl
  rcases List.mem_append.mp h with h | h
  · have := thresholdRegister_range h
    omega
  · have := batteryRegister_range (hb w h)
    omega

/-- Steps 4 to 6 are stored write by write: the electrodes are stopped until step 6
(20_memory.md R62). -/
theorem bootProgramming_regs (hb : ∀ w ∈ battery, batteryRegister w.1 = true) {s : State}
    (stopped : s.Stopped) :
    (s.busWrites (bootProgramming battery)).regs =
      Memory.writeAll s.regs (bootProgramming battery) := by
  obtain ⟨stored, -⟩ := busWrites_stopped stopped fun w hw =>
    ⟨configWrites_ne hb hw (by decide), configWrites_ne hb hw (by decide),
      configWrites_ne hb hw (by decide), configWrites_ne hb hw (by decide),
      configWrites_ne hb hw (by decide)⟩
  rw [bootProgramming, busWrites_append, busWrites_cons, busWrites_nil, memWrite8_ecr, stored,
    Memory.writeAll_append]
  rfl

/-- What steps 4 to 6 leave in the registers (70_reset_and_hazards.md R218 to R220). -/
theorem bootProgramming_chip (hb : ∀ w ∈ battery, batteryRegister w.1 = true) {s : State}
    (stopped : s.Stopped) :
    let regs := (s.busWrites (bootProgramming battery)).regs
    Memory.read regs regEcr.toNat = some (ecrValue 12) ∧
      (∀ w ∈ thresholdWrites 12#8 6#8, Memory.read regs w.1.toNat = some w.2) ∧
      Memory.read regs regGpioEn.toNat = Memory.read s.regs regGpioEn.toNat := by
  have ecr (reg : RegNo) (h : reg ≠ regEcr) : ∀ w ∈ [(regEcr, ecrValue 12)], w.1 ≠ reg :=
    fun w hw => List.mem_singleton.mp hw ▸ h.symm
  rw [bootProgramming_regs hb stopped, bootProgramming, Memory.writeAll_append]
  refine ⟨Memory.read_write_same _ _ _, fun w hw => ?threshold, ?gpioEn⟩
  case threshold =>
    have range := thresholdRegister_range hw
    rw [Memory.read_writeAll_other (ecr w.1 fun e => absurd (e ▸ range) (by decide)),
      Memory.writeAll_append, Memory.read_writeAll_other,
      Memory.read_writeAll_mem hw (thresholdWrites_nodup _ _)]
    intro v hv e
    have := e ▸ batteryRegister_range (hb v hv)
    omega
  case gpioEn =>
    rw [Memory.read_writeAll_other (ecr regGpioEn (by decide)), Memory.read_writeAll_other]
    exact fun w hw => configWrites_ne hb hw (by decide)

end

/-! ## The whole sequence -/

theorem busWrites_ports (s : State) (ws : List (RegNo × Byte)) :
    (s.busWrites ws).rspOut = s.rspOut ∧ (s.busWrites ws).xpOut = s.xpOut := by
  rw [busWrites_frame]
  exact ⟨rfl, rfl⟩

/-- On a chip that has not changed Config2 since its reset the sequence succeeds. -/
theorem hostBoot_eq (s : State) (battery : List (RegNo × Byte)) {es : List Event}
    (h : ∀ e ∈ es, ∃ reg v, e = .chipByte reg v ∧ reg ≠ regConfig2) :
    s.hostBoot battery es = (true, (((s.busWrites bootOpening).applyEvents es).busWrites
      (bootProgramming battery)).resetBlock) := by
  obtain ⟨-, config2⟩ := bootOpening_chip s
  have readback : s.bootReadback es = (config2Reset, (s.busWrites bootOpening).applyEvents es) :=
    memRead8_listed ((read_chipBytes_other h _).trans config2)
  rw [hostBoot_succeeds battery (congrArg Prod.fst readback), readback,
    rst_nothing_lands (.inl rfl)]

/-- Settles O26: the opening stops the electrodes and Config2 reads as after a reset, so the
programming is stored, and `rst` resets the block. -/
theorem bootLeavesTheDefaultConfiguration : Obligations.BootLeavesTheDefaultConfiguration := by
  intro s battery es hb hes t
  have other {r : RegNo} (hr : r = regEcr ∨ r = regConfig2) :
      ∀ e ∈ es, ∃ reg v, e = .chipByte reg v ∧ reg ≠ r := by
    intro e he
    obtain ⟨reg, v, rfl, ecr, config2⟩ := hes e he
    rcases hr with rfl | rfl
    · exact ⟨reg, v, rfl, ecr⟩
    · exact ⟨reg, v, rfl, config2⟩
  have boot := hostBoot_eq s battery (other (.inr rfl))
  have result : t = _ := congrArg Prod.snd boot
  clear_value t
  obtain ⟨stops, -⟩ := bootOpening_chip s
  have stopped : ((s.busWrites bootOpening).applyEvents es).Stopped :=
    (read_chipBytes_other (other (.inl rfl)) _).trans stops
  obtain ⟨ecr, thresholds, gpioEn⟩ := bootProgramming_chip hb stopped
  obtain ⟨-, fanOut, -⟩ := thresholdFanOut 12#8 6#8
  obtain ⟨rsp1, xp1⟩ := busWrites_ports s bootOpening
  obtain ⟨rsp2, xp2, -⟩ := applyEvents_ports (s.busWrites bootOpening) es
  obtain ⟨rsp3, xp3⟩ :=
    busWrites_ports ((s.busWrites bootOpening).applyEvents es) (bootProgramming battery)
  rw [result]
  refine ⟨congrArg Prod.fst boot, ⟨ecr, chan_resetBlock _⟩, fun i => ?_, gpioEn, rfl, rfl, rfl, rfl,
    rsp3.trans (rsp2.trans rsp1), xp3.trans (xp2.trans xp1)⟩
  obtain ⟨touch, release⟩ := fanOut i
  have number {n : Nat} (h : n ≤ 0x58) : (BitVec.ofNat 8 n).toNat = n := by
    rw [BitVec.toNat_ofNat]; omega
  have readTouch := thresholds _ touch
  have readRelease := thresholds _ release
  rw [number (by omega)] at readTouch readRelease
  exact ⟨readTouch, readRelease⟩

end Sys2Proof.Machine
end

/-! # The number of transport requests -/

section
namespace Sys2Proof.Machine

/-! ## Requests counted -/

/-- The micro-step issues a request (70_reset_and_hazards.md R238). -/
def MicroOp.requests : MicroOp → Bool
  | .writeEnable | .writeDirection | .writeElectrodes | .clearOutputs | .readRegister _
  | .writeBit _ _ _ | .readStatus => true
  | .assignRole _ _ | .takeStatus | .takeLatch | .judgeTouch _ | .cacheLevel _ => false

/-- Whether a micro-step issues a request does not depend on the state. -/
theorem opRequest_isSome (s : State) (f : InFlight) (op : MicroOp) :
    (opRequest s f op).isSome = op.requests := by
  cases op <;> rfl

theorem countP_requests_cons (op : MicroOp) (rest : List MicroOp) :
    (op :: rest).countP MicroOp.requests =
      op.requests.toNat + rest.countP MicroOp.requests := by
  rw [List.countP_cons, Nat.add_comm]
  cases op.requests <;> rfl

/-- Between `s` and `t` the block has sent `n` words on `xp_req`. -/
def Sent (s t : State) (n : Nat) : Prop := ∃ rs, t.xpOut = s.xpOut ++ rs ∧ rs.length = n

theorem sent_none {s t : State} (h : t.xpOut = s.xpOut) : Sent s t 0 := ⟨[], by simp [h], rfl⟩

theorem sent_one {s t : State} {w : XpRequest} (h : t.xpOut = s.xpOut ++ [w]) : Sent s t 1 :=
  ⟨[w], h, rfl⟩

theorem Sent.trans {s t u : State} {m n : Nat} (h : Sent s t m) (h' : Sent t u n) :
    Sent s u (m + n) := by
  obtain ⟨rs, e, rfl⟩ := h
  obtain ⟨qs, e', rfl⟩ := h'
  exact ⟨rs ++ qs, by rw [e', e, List.append_assoc], List.length_append⟩

/-- The number sent is determined. -/
theorem Sent.unique {s t : State} {m n : Nat} (h : Sent s t m) (h' : Sent s t n) : m = n := by
  obtain ⟨rs, e, rfl⟩ := h
  obtain ⟨qs, e', rfl⟩ := h'
  rw [List.append_cancel_left (e.symm.trans e')]

/-! ## In any environment -/

theorem finishOp_xpOut (s : State) (f : InFlight) (op : MicroOp) (rest : List MicroOp)
    (d : BitVec 16) : (finishOp s f op rest d).xpOut = s.xpOut := by
  rw [finishOp_frame]

/-- An answer sends nothing on `xp_req`. -/
theorem answerOp_xpOut (s : State) (f : InFlight) (op : MicroOp) (rest : List MicroOp) (r : Request)
    (a : Answer) : (answerOp s f op rest r a).xpOut = s.xpOut := by
  cases a with
  | ok => rw [answerOp_ok, finishOp_xpOut, perform_frame]
  | error landed => rw [answerOp_error, reject_xpOut, performFailed_frame]

/-- A micro-step sends its request, or nothing when `rst` falls before it. -/
theorem microStep_sent (s : State) (f : InFlight) (op : MicroOp) (rest : List MicroOp) :
    ∃ n ≤ op.requests.toNat, Sent s (microStep s f op rest) n := by
  have arrive : s.arrive.xpOut = s.xpOut := (arrive_ports s).2.1
  have one {r : Request} (hr : opRequest s.arrive f op = some r) : 1 ≤ op.requests.toNat := by
    rw [← opRequest_isSome s.arrive f op, hr]
    rfl
  rcases microStep_cases s f op rest with
    ⟨-, e⟩ | ⟨-, ⟨-, e⟩ | ⟨r, a, hr, -, e⟩ | ⟨r, hr, -, e⟩⟩ <;> rw [e]
  · exact ⟨0, Nat.zero_le _, sent_none arrive⟩
  · exact ⟨0, Nat.zero_le _, sent_none ((finishOp_xpOut _ _ _ _ _).trans arrive)⟩
  · refine ⟨1, one hr, sent_one (w := r.word) ?_⟩
    rw [answerOp_xpOut, logRequest_xpOut, arrive]
  · refine ⟨1, one hr, sent_one (w := r.word) ?_⟩
    rw [← arrive]
    rfl

/-- Since `s` the command has sent `n` requests, and what it has still to run does not bring them
above `bound`. -/
def WithinRequests (s : State) (bound : Nat) (u : State) : Prop :=
  ∃ n, Sent s u n ∧ n ≤ bound ∧
    ∀ f, u.busy = some f → f.outstanding = none → n + f.todo.countP MicroOp.requests ≤ bound

theorem WithinRequests.microStep {s u : State} {bound : Nat} {f : InFlight} {op : MicroOp}
    {rest : List MicroOp} (h : WithinRequests s bound u) (hb : u.busy = some f)
    (ho : f.outstanding = none) (ht : f.todo = op :: rest) :
    WithinRequests s bound (microStep u f op rest) := by
  obtain ⟨n, sent, -, left⟩ := h
  obtain ⟨m, hm, now⟩ := microStep_sent u f op rest
  have left := left f hb ho
  rw [ht, countP_requests_cons] at left
  refine ⟨n + m, sent.trans now, by omega, fun g hg hgo => ?_⟩
  rw [microStep_todo hg hgo]
  omega

/-- However the environment behaves, the micro-steps send no more than one request each. -/
theorem start_sent_le (s : State) (ops : List MicroOp) :
    ∃ n ≤ ops.countP MicroOp.requests, Sent s (s.start ops) n := by
  refine run_induction (s := s.accept ops)
    (P := WithinRequests s (ops.countP MicroOp.requests))
    (Q := fun u => ∃ n ≤ ops.countP MicroOp.requests, Sent s u n) ?step ?done ?idle ?waiting ?start
  case step => exact fun u f op rest h hb ho ht => h.microStep hb ho ht
  case done => exact fun u f ⟨n, sent, le, _⟩ _ _ _ => ⟨n, le, sent⟩
  case idle => exact fun u ⟨n, sent, le, _⟩ _ => ⟨n, le, sent⟩
  case waiting => exact fun u f r ⟨n, sent, le, _⟩ _ _ => ⟨n, le, sent⟩
  case start =>
    refine ⟨0, sent_none rfl, Nat.zero_le _, fun f hf _ => ?_⟩
    cases hf
    exact (Nat.zero_add _).le

/-! ## In a quiet environment -/

theorem quietOp_sent (s : State) (f : InFlight) (op : MicroOp) :
    Sent s (quietOp s f op).1 op.requests.toNat := by
  unfold quietOp
  rw [← opRequest_isSome s f op]
  cases opRequest s f op with
  | none => exact sent_none (t := opEffect s f op) (by rw [opEffect_frame])
  | some r =>
    refine sent_one (t := opEffect ((s.logRequest r).perform r).2 f op) (w := r.word) ?_
    rw [opEffect_frame, perform_frame, logRequest_xpOut]

theorem quietRun_sent (s : State) (f : InFlight) (ops : List MicroOp) :
    Sent s (quietRun s f ops) (ops.countP MicroOp.requests) := by
  induction ops generalizing s f with
  | nil => exact sent_none rfl
  | cons op rest ih =>
    rw [countP_requests_cons]
    exact (quietOp_sent s f op).trans (ih _ _)

theorem start_sent_quiet {s : State} {ops : List MicroOp} (quiet : s.QuietFor ops.length) :
    Sent s (s.start ops) (ops.countP MicroOp.requests) := by
  rw [start_quiet quiet]
  exact quietRun_sent s s.fresh ops

/-! ## Command by command -/

/-- From `s` to `t` at most `n` requests go out, and exactly `n` in a quiet environment
(70_reset_and_hazards.md R238). -/
def Costs (s t : State) (n : Nat) : Prop :=
  ∃ m, Sent s t m ∧ m ≤ n ∧ (s.QuietFor 5 → m = n)

theorem costs_none {s t : State} (h : t.xpOut = s.xpOut) : Costs s t 0 :=
  ⟨0, sent_none h, le_rfl, fun _ => rfl⟩

/-- No command has more than five micro-steps. -/
theorem costs_start (s : State) {ops : List MicroOp} (h : ops.length ≤ 5) :
    Costs s (s.start ops) (ops.countP MicroOp.requests) := by
  obtain ⟨n, le, sent⟩ := start_sent_le s ops
  exact ⟨n, sent, le, fun quiet => sent.unique (start_sent_quiet (quiet.mono h))⟩

/-- A `ch` operand selects a channel, or is one that 60_exceptions.md R182 refuses. -/
theorem operand_cases (ch : BitVec 4) : 11 < ch.toNat ∨ ∃ c, ch = channelOperand c := by
  refine or_iff_not_imp_left.mpr fun good => ⟨⟨ch.toNat, by omega⟩, channelOf_eq_some ?_⟩
  exact dif_pos _

theorem requestCount_badChannel {i : Instr} {ch : BitVec 4} (h : i.channel? = some ch) (s : State)
    (bad : 11 < ch.toNat) : requestCount s i = 0 := by
  cases i with
  | tchall | useirq | setdbd => cases h
  | setdbc | clrdbc => rfl
  | tchch | settype | pullup | pulldn | gpioen | gpiost =>
    cases h
    simp [requestCount, Instr.channel?, channelOf_eq_none bad]

/-- A command with a `ch` operand costs nothing when the channel does not exist, and else what the
rest of it costs. -/
theorem costs_withChannel {i : Instr} {ch : BitVec 4} (hi : i.channel? = some ch) {s : State}
    {k : ChannelIx → State}
    (h : ∀ c, ch = channelOperand c → Costs s (k c) (requestCount s i)) :
    Costs s (s.withChannel ch k) (requestCount s i) := by
  rcases operand_cases ch with bad | ⟨c, rfl⟩
  · rw [withChannel_bad s k bad, requestCount_badChannel hi s bad]
    exact costs_none rfl
  · rw [withChannel_operand]
    exact h c rfl

theorem requestCount_tchch (s : State) (c : ChannelIx) :
    requestCount s (.tchch (channelOperand c)) =
      if s.role c = .gpioOut ∨ ((s.chan c).touched = .idle ∧ s.elapsed c s.now = false) then 0
      else if s.useIRQ then 0 else 1 := by
  simp only [requestCount, Instr.channel?, Option.bind_some, channelOf_operand]

theorem requestCount_settype (s : State) (c : ChannelIx) (r : Role) :
    requestCount s (.settype (channelOperand c) r.code) =
      if (c.val < 4 ∧ r ≠ .sensor) ∨ layoutOk s.role c r = false then 0 else 4 := by
  simp only [requestCount, Instr.channel?, Option.bind_some, channelOf_operand, roleOf_code]

theorem requestCount_badRole (s : State) (c : ChannelIx) {role : BitVec 2}
    (h : roleOf role = none) : requestCount s (.settype (channelOperand c) role) = 0 := by
  simp only [requestCount, Instr.channel?, Option.bind_some, channelOf_operand, h]

theorem requestCount_pull {i : Instr} {c : ChannelIx} {up : Bool} (h : Pulls i c up) (s : State) :
    requestCount s i = if s.role c = .gpioIn then 4 else 0 := by
  rcases h with ⟨rfl, -⟩ | ⟨rfl, -⟩ <;>
    simp only [requestCount, Instr.channel?, Option.bind_some, channelOf_operand]

theorem requestCount_gpioen (s : State) (c : ChannelIx) (en : Bool) :
    requestCount s (.gpioen (channelOperand c) en) = if s.role c = .sensor then 0 else 2 := by
  simp only [requestCount, Instr.channel?, Option.bind_some, channelOf_operand]

theorem requestCount_gpiost (s : State) (c : ChannelIx) :
    requestCount s (.gpiost (channelOperand c)) = if s.role c = .gpioIn then 1 else 0 := by
  simp only [requestCount, Instr.channel?, Option.bind_some, channelOf_operand]

/-- AGG reads the status in polling mode only (42_touch_detection.md R140). -/
theorem countP_aggOps (s : State) :
    (aggOps s).countP MicroOp.requests = if s.useIRQ then 0 else 1 := by
  unfold aggOps
  split <;> rfl

theorem aggOps_length (s : State) : (aggOps s).length ≤ 2 := by
  unfold aggOps
  split <;> decide

theorem costs_tchall (s : State) : Costs s (s.start (aggOps s)) (requestCount s .tchall) := by
  have count : requestCount s .tchall = (aggOps s).countP MicroOp.requests :=
    (countP_aggOps s).symm
  rw [count]
  exact costs_start s ((aggOps_length s).trans (by decide))

/-- TCHCH (42_touch_detection.md R145). -/
theorem costs_tchch (s : State) (c : ChannelIx) :
    Costs s (queryChannel s c) (requestCount s (.tchch (channelOperand c))) := by
  rw [requestCount_tchch, queryChannel]
  by_cases output : s.role c = .gpioOut
  · rw [if_pos output, if_pos (.inl output)]
    exact costs_none rfl
  by_cases held : (s.chan c).touched = .idle ∧ s.elapsed c s.now = false
  · rw [if_neg output, if_pos held, if_pos (.inr held)]
    exact costs_none rfl
  · have count : (aggOps s ++ [MicroOp.judgeTouch c]).countP MicroOp.requests =
        if s.useIRQ then 0 else 1 := by
      rw [List.countP_append, countP_aggOps]
      rfl
    have length : (aggOps s ++ [MicroOp.judgeTouch c]).length ≤ 5 := by
      rw [List.length_append]
      exact Nat.add_le_add (aggOps_length s) (by simp : _ ≤ 3)
    rw [if_neg output, if_neg held, if_neg (not_or.mpr ⟨output, held⟩), ← count]
    exact costs_start s length

/-- SETTYPE (40_channel_role_packer.md R100). -/
theorem costs_settype (s : State) (c : ChannelIx) (role : BitVec 2) :
    Costs s (assignType s role c) (requestCount s (.settype (channelOperand c) role)) := by
  cases named : roleOf role with
  | none =>
    rw [requestCount_badRole s c named]
    exact costs_none (by simp only [assignType, named, reject_xpOut])
  | some r =>
    obtain rfl := roleOf_eq_some named
    rw [requestCount_settype]
    simp only [assignType, named]
    by_cases sensorOnly : c.val < 4 ∧ r ≠ .sensor
    · rw [if_pos sensorOnly, if_pos (.inl sensorOnly)]
      exact costs_none rfl
    by_cases gap : layoutOk s.role c r = false
    · rw [if_neg sensorOnly, if_pos gap, if_pos (.inr gap)]
      exact costs_none rfl
    · rw [if_neg sensorOnly, if_neg gap, if_neg (not_or.mpr ⟨sensorOnly, gap⟩)]
      exact costs_start s (ops := settypeOps c r) le_rfl

/-- PULLUP and PULLDN (41_gpio_bit_ops.md R122, R123). -/
theorem costs_pull {i : Instr} {c : ChannelIx} {up : Bool} (h : Pulls i c up) (s : State) :
    Costs s (pullChannel s up c) (requestCount s i) := by
  rw [requestCount_pull h, pullChannel]
  split
  · exact costs_start s (ops := pullOps (gpioBit c) up) (Nat.le_succ 4)
  · exact costs_none rfl

/-- GPIOEN (41_gpio_bit_ops.md R124). -/
theorem costs_gpioen (s : State) (c : ChannelIx) (en : Bool) :
    Costs s (enableChannel s en c) (requestCount s (.gpioen (channelOperand c) en)) := by
  rw [requestCount_gpioen, enableChannel]
  split
  · exact costs_none rfl
  · exact costs_start s (ops := rmwOps regGpioEn (gpioBit c) en) (Nat.le_add_right 2 3)

/-- GPIOST (41_gpio_bit_ops.md R126). -/
theorem costs_gpiost (s : State) (c : ChannelIx) :
    Costs s (statusChannel s c) (requestCount s (.gpiost (channelOperand c))) := by
  rw [requestCount_gpiost, statusChannel]
  cases s.role c with
  | sensor => exact costs_none rfl
  | gpioOut => exact costs_none rfl
  | gpioIn =>
    exact costs_start s (ops := [.readRegister regGpioDat, .cacheLevel c]) (Nat.le_add_right 2 3)

/-- Every command costs what R238 says. -/
theorem exec_costs (i : Instr) (s : State) :
    ∃ t, exec i s = .next t ∧ Costs s t (requestCount s i) := by
  cases i with
  | tchall => exact ⟨_, rfl, costs_tchall s⟩
  | useirq en => exact ⟨_, rfl, costs_none rfl⟩
  | setdbd v => exact ⟨_, rfl, costs_none rfl⟩
  | setdbc ch v => exact ⟨_, rfl, costs_withChannel rfl fun c _ => costs_none rfl⟩
  | clrdbc ch => exact ⟨_, rfl, costs_withChannel rfl fun c _ => costs_none rfl⟩
  | tchch ch => exact ⟨_, rfl, costs_withChannel rfl fun c e => e ▸ costs_tchch s c⟩
  | settype ch role => exact ⟨_, rfl, costs_withChannel rfl fun c e => e ▸ costs_settype s c role⟩
  | pullup ch =>
    exact ⟨_, rfl, costs_withChannel rfl fun c e => costs_pull (.inl ⟨e ▸ rfl, rfl⟩) s⟩
  | pulldn ch =>
    exact ⟨_, rfl, costs_withChannel rfl fun c e => costs_pull (.inr ⟨e ▸ rfl, rfl⟩) s⟩
  | gpioen ch en => exact ⟨_, rfl, costs_withChannel rfl fun c e => e ▸ costs_gpioen s c en⟩
  | gpiost ch => exact ⟨_, rfl, costs_withChannel rfl fun c e => e ▸ costs_gpiost s c⟩

/-- Settles O15: what a command costs is what has been sent. -/
theorem requestsPerCommand : Obligations.RequestsPerCommand := by
  intro i s t h
  obtain ⟨u, e, _, ⟨rs, sent, rfl⟩, bound, exactly⟩ := exec_costs i s
  cases e.symm.trans h
  exact ⟨rs, sent, bound, exactly⟩

end Sys2Proof.Machine
end

/-! # Late answers -/

section
namespace Sys2Proof.Machine

/-! ## A run, micro-step by micro-step -/

theorem run_busy {s : State} {f : InFlight} (hb : s.busy = some f) :
    s.run = runMicro (f.todo.length + 1) s := by
  simp only [State.run, hb]

theorem run_idle {s : State} (hb : s.busy = none) : s.run = s := by
  simp only [State.run, hb]

theorem run_waiting {s : State} {f : InFlight} {r : Request} (hb : s.busy = some f)
    (ho : f.outstanding = some r) : s.run = s :=
  (run_busy hb).trans (runMicro_waiting hb ho)

theorem run_done {s : State} {f : InFlight} (hb : s.busy = some f) (ho : f.outstanding = none)
    (ht : f.todo = []) : s.run = s.respond f.data :=
  (run_busy hb).trans (runMicro_done hb ho ht)

/-- A command that does not wait runs its next micro-step and goes on. -/
theorem run_step {s : State} {f : InFlight} {op : MicroOp} {rest : List MicroOp}
    (hb : s.busy = some f) (ho : f.outstanding = none) (ht : f.todo = op :: rest) :
    s.run = (microStep s f op rest).run := by
  have first : s.run = runMicro (rest.length + 1) (microStep s f op rest) := by
    rw [run_busy hb, runMicro_step hb ho ht, ht, List.length_cons]
  rw [first]
  cases hm : (microStep s f op rest).busy with
  | none => rw [runMicro_idle hm, run_idle hm]
  | some g =>
    cases hg : g.outstanding with
    | none => rw [run_busy hm, microStep_todo hm hg]
    | some r => rw [runMicro_waiting hm hg, run_waiting hm hg]

/-! ## Where a run stops -/

/-- The block is idle, or its command does not wait for an answer. -/
def State.Moving (s : State) : Prop := ∀ f, s.busy = some f → f.outstanding = none

theorem run_atRest (s : State) : ∀ f, s.run.busy = some f → f.outstanding ≠ none := by
  refine run_induction (P := fun _ => True)
    (Q := fun u => ∀ f, u.busy = some f → f.outstanding ≠ none) ?step ?done ?idle ?waiting trivial
  case step => exact fun _ _ _ _ _ _ _ _ => trivial
  case done => exact fun u f _ _ _ _ g hg => by cases hg
  case idle => exact fun u _ hb g hg => by cases hb.symm.trans hg
  case waiting =>
    intro u f r _ hb ho g hg
    cases hb.symm.trans hg
    simp [ho]

/-- A micro-step whose slot has an answer does not wait (20_memory.md R56). -/
theorem microStep_moving {s : State} (f : InFlight) (op : MicroOp) (rest : List MicroOp)
    (h : s.nextSlot.answer ≠ none) : (microStep s f op rest).Moving := by
  intro g hg
  rcases microStep_cases s f op rest with
    ⟨idle, e⟩ | ⟨-, ⟨-, e⟩ | ⟨r, a, -, -, e⟩ | ⟨r, -, late, -⟩⟩
  · cases idle.symm.trans (e ▸ hg)
  · rw [e] at hg; cases hg; rfl
  · rw [e] at hg
    cases a with
    | ok => cases hg; rfl
    | error landed => cases hg
  · exact absurd late h

/-- A slot without an answer is one of the script: a script that has ended is quiet. -/
theorem script_ne_nil {s : State} (h : s.nextSlot.answer = none) : s.script ≠ [] := by
  intro ended
  simp [State.nextSlot, ended, Slot.quiet] at h

/-- A run that ends waiting has taken a slot without an answer. -/
theorem run_script_lt {s : State} (moving : s.Moving) (h : s.run.busy ≠ none) :
    s.run.script.length < s.script.length := by
  refine run_induction
    (P := fun u => u.Moving ∧ u.script.length ≤ s.script.length ∨
      u.script.length < s.script.length)
    (Q := fun u => u.busy ≠ none → u.script.length < s.script.length)
    ?step ?done ?idle ?waiting (.inl ⟨moving, le_rfl⟩) h
  case step =>
    intro u f op rest hu _ _ _
    have le : u.script.length ≤ s.script.length := hu.elim And.right Nat.le_of_lt
    rw [microStep_script, List.length_tail]
    by_cases prompt : u.nextSlot.answer = none
    · have := List.length_pos_iff.mpr (script_ne_nil prompt)
      exact .inr (by omega)
    · exact .inl ⟨microStep_moving f op rest prompt, by omega⟩
  case done => exact fun u f _ _ _ _ busy => absurd rfl busy
  case idle => exact fun u _ hb busy => absurd hb busy
  case waiting =>
    intro u f r hu hb ho _
    exact hu.resolve_left fun ⟨moving, _⟩ => by cases (moving f hb).symm.trans ho

/-! ## The script replaced -/

/-- The state with another script. -/
def State.withScript (s : State) (sc : List Slot) : State := { s with script := sc }

/-- A run that does not end idle begins with a micro-step, under any script the same one. -/
theorem run_first {s : State} (moving : s.Moving) (busy : s.run.busy ≠ none) :
    ∃ f op ops, f.todo = op :: ops ∧ s.run = (microStep s f op ops).run ∧
      ∀ sc, (s.withScript sc).run = (microStep (s.withScript sc) f op ops).run := by
  cases hb : s.busy with
  | none => exact absurd ((congrArg State.busy (run_idle hb)).trans hb) busy
  | some f =>
    have ho := moving f hb
    cases ht : f.todo with
    | nil => exact absurd (by rw [run_done hb ho ht]; rfl) busy
    | cons op ops =>
      exact ⟨f, op, ops, ht, run_step hb ho ht, fun sc => run_step (s := s.withScript sc) hb ho ht⟩

theorem book_busy {s : State} {b : Option InFlight} (h : s.busy = b) (sc : List Slot) :
    s.book b sc = s.withScript sc := by
  subst h
  rfl

theorem withScript_memWrite8 (s : State) (sc : List Slot) (reg : RegNo) (v : Byte) :
    (s.withScript sc).memWrite8 reg v = (s.memWrite8 reg v).withScript sc :=
  (book_memWrite8 s s.busy sc reg v).trans (book_busy (by rw [memWrite8_frame]) sc)

theorem withScript_land (s : State) (sc : List Slot) (r : Request) (landed : Bool) :
    (s.withScript sc).land r landed = (s.land r landed).withScript sc := by
  cases r with
  | read8 d reg => rfl
  | read16 d reg => rfl
  | write8 d reg v => cases landed with
    | false => rfl
    | true => exact withScript_memWrite8 s sc reg v

theorem withScript_rst (s : State) (sc : List Slot) (landed : Bool) :
    (s.withScript sc).rst landed = (s.rst landed).withScript sc := by
  have outstanding : (s.withScript sc).outstanding = s.outstanding := rfl
  unfold State.rst
  rw [outstanding]
  cases s.outstanding with
  | none => rfl
  | some r => exact congrArg State.resetBlock (withScript_land s sc r landed)

/-- What happens at one instant has nothing to do with the slots to come. -/
theorem withScript_applyEvents (s : State) (sc : List Slot) (es : List Event) :
    (s.withScript sc).applyEvents es = (s.applyEvents es).withScript sc := by
  induction es generalizing s with
  | nil => rfl
  | cons e es ih =>
    have first : (s.withScript sc).applyEvent e = (s.applyEvent e).withScript sc := by
      cases e with
      | rst landed => exact withScript_rst s sc landed
      | busWrite reg v => exact withScript_memWrite8 s sc reg v
      | fireIrq | chipByte | chipReset | setNow => rfl
    have split (u : State) : u.applyEvents (e :: es) = (u.applyEvent e).applyEvents es := rfl
    rw [split, first, ih, split]

/-- What an answer does has nothing to do with the sequencer's bookkeeping. -/
theorem answerOp_book (s : State) (b : Option InFlight) (sc : List Slot) (f : InFlight)
    (op : MicroOp) (rest : List MicroOp) (r : Request) (a : Answer) :
    answerOp (s.book b sc) f op rest r a = (answerOp s f op rest r a).withScript sc := by
  cases a with
  | ok =>
    simp only [answerOp_ok, book_perform, finishOp, book_opEffect, book_opSequencer]
    rfl
  | error landed =>
    simp only [answerOp_error, book_performFailed]
    rfl

theorem finishOp_book (s : State) (b : Option InFlight) (sc : List Slot) (f : InFlight)
    (op : MicroOp) (rest : List MicroOp) (d : BitVec 16) :
    finishOp (s.book b sc) f op rest d = (finishOp s f op rest d).withScript sc := by
  simp only [finishOp, book_opEffect, book_opSequencer]
  rfl

/-- A micro-step takes the first slot and looks at no other. -/
theorem microStep_withScript {s : State} {slot : Slot} {sc : List Slot} (hs : s.script = slot :: sc)
    (sc' : List Slot) (f : InFlight) (op : MicroOp) (rest : List MicroOp) :
    microStep (s.withScript (slot :: sc')) f op rest = (microStep s f op rest).withScript sc' := by
  have now : s.nextSlot = slot := by rw [State.nextSlot, hs]; rfl
  have now' : (s.withScript (slot :: sc')).nextSlot = slot := rfl
  have arrive : (s.withScript (slot :: sc')).dropSlot.applyEvents slot.events =
      (s.dropSlot.applyEvents slot.events).withScript sc' :=
    withScript_applyEvents s.dropSlot sc' slot.events
  simp only [microStep, now, now', arrive]
  generalize s.dropSlot.applyEvents slot.events = u
  have busy : (u.withScript sc').busy = u.busy := rfl
  have request : opRequest (u.withScript sc') f op = opRequest u f op := opRequest_congr rfl rfl
  rw [busy, request]
  cases u.busy with
  | none => rfl
  | some g =>
    cases opRequest u f op with
    | none => exact finishOp_book u u.busy sc' f op rest _
    | some r =>
      cases slot.answer with
      | none => rfl
      | some a => exact answerOp_book (u.logRequest r) u.busy sc' f op rest r a

/-! ## An answer that comes late -/

/-- The sequencer's note of the outstanding request is gone when the answer has been taken. -/
theorem answerOp_outstanding (s : State) (f : InFlight) (o : Option Request) (op : MicroOp)
    (rest : List MicroOp) (r : Request) (a : Answer) :
    answerOp s { f with outstanding := o } op rest r a = answerOp s f op rest r a := by
  cases a with
  | ok =>
    simp only [answerOp_ok, finishOp]
    rw [opEffect_todo _ f f.todo, opSequencer_todo _ f f.todo]
  | error landed => rfl

/-- What an answer does has nothing to do with the sequencer's state but for the command `f`. -/
theorem answerOp_busy (s : State) (b : Option InFlight) (f : InFlight) (op : MicroOp)
    (rest : List MicroOp) (r : Request) (a : Answer) :
    answerOp { s with busy := b } f op rest r a = answerOp s f op rest r a :=
  (answerOp_book s b s.script f op rest r a).trans
    (answerOp_book s s.busy s.script f op rest r a).symm

/-- A block that waits takes the answer that comes first. -/
theorem step_waiting_answer {s : State} {f : InFlight} {r : Request} {a : Answer}
    {rest : List Input} (hb : s.busy = some f) (ho : f.outstanding = some r)
    (hi : s.inputs = .answer a :: rest) :
    step s = .next (({ s with inputs := rest } : State).lateAnswer a) := by
  simp [step, nextMove, hb, busyMove, ho, hi, takeNonCommand, State.absorb]

/-- The micro-step that waits, given its answer late, comes to what it comes to when the slot
answers (20_memory.md R51, R56). -/
theorem microStep_late {s : State} {f : InFlight} {op : MicroOp} {ops : List MicroOp}
    {es : List Event} {rest : List Slot} (a : Answer)
    (hs : s.script = ⟨es, none⟩ :: rest) (ht : f.todo = op :: ops)
    (waits : ¬ (microStep s f op ops).Moving) :
    (microStep s f op ops).lateAnswer a =
      (microStep (s.withScript (⟨es, some a⟩ :: rest)) f op ops).run := by
  have slot : s.nextSlot = ⟨es, none⟩ := by rw [State.nextSlot, hs]; rfl
  have arrive : (s.withScript (⟨es, some a⟩ :: rest)).arrive = s.arrive := by
    rw [State.arrive, State.arrive, slot, State.dropSlot, State.dropSlot, hs]
    rfl
  rcases microStep_cases s f op ops with
    ⟨idle, e⟩ | ⟨busy, ⟨-, e⟩ | ⟨r, b, -, hb, -⟩ | ⟨r, hr, -, e⟩⟩
  · refine absurd (fun g hg => ?_) waits
    cases idle.symm.trans (e ▸ hg)
  · refine absurd (fun g hg => ?_) waits
    rw [e] at hg
    cases hg
    rfl
  · rw [slot] at hb
    cases hb
  · obtain ⟨g, hg⟩ := Option.ne_none_iff_exists'.mp busy
    have prompt : microStep (s.withScript (⟨es, some a⟩ :: rest)) f op ops =
        answerOp (s.arrive.logRequest r) f op ops r a := by
      rw [← arrive] at hg hr ⊢
      exact microStep_answered hg hr rfl
    rw [prompt, e, lateAnswer_waiting (f := { f with outstanding := some r }) a rfl rfl ht,
      answerOp_outstanding, answerOp_busy]

/-- A command that waits at the slot after `pre`, given its answer late, ends as it does when the
slot answers. -/
theorem run_late {s : State} {pre rest : List Slot} {es : List Event} (a : Answer)
    (moving : s.Moving) (hs : s.script = pre ++ ⟨es, none⟩ :: rest)
    (prompt : ∀ slot ∈ pre, slot.answer ≠ none) (busy : s.run.busy ≠ none)
    (hrest : s.run.script = rest) :
    s.run.lateAnswer a = (s.withScript (pre ++ ⟨es, some a⟩ :: rest)).run := by
  induction pre generalizing s with
  | nil =>
    obtain ⟨f, op, ops, ht, first, first'⟩ := run_first moving busy
    rw [first] at busy hrest ⊢
    rw [first']
    by_cases moves : (microStep s f op ops).Moving
    · have lt := run_script_lt moves busy
      rw [hrest, microStep_script, hs] at lt
      exact absurd lt (lt_irrefl _)
    · obtain ⟨g, hg, hgo⟩ : ∃ g, (microStep s f op ops).busy = some g ∧ g.outstanding ≠ none := by
        simpa [State.Moving] using moves
      obtain ⟨r, hr⟩ := Option.ne_none_iff_exists'.mp hgo
      rw [run_waiting hg hr]
      exact microStep_late a hs ht moves
  | cons slot pre ih =>
    obtain ⟨f, op, ops, -, first, first'⟩ := run_first moving busy
    rw [first] at busy hrest ⊢
    have now : s.nextSlot = slot := by rw [State.nextSlot, hs]; rfl
    have moves : (microStep s f op ops).Moving :=
      microStep_moving f op ops (by rw [now]; exact prompt slot (by simp))
    have script : (microStep s f op ops).script = pre ++ ⟨es, none⟩ :: rest := by
      rw [microStep_script, hs]
      rfl
    rw [ih moves script (fun slot h => prompt slot (List.mem_cons_of_mem _ h)) busy hrest, first',
      List.cons_append, microStep_withScript hs]

theorem start_late {s : State} {ops : List MicroOp} {pre rest : List Slot} {es : List Event}
    (a : Answer) (hs : s.script = pre ++ ⟨es, none⟩ :: rest)
    (prompt : ∀ slot ∈ pre, slot.answer ≠ none) (busy : (s.start ops).busy ≠ none)
    (hrest : (s.start ops).script = rest) :
    (s.start ops).lateAnswer a = (s.withScript (pre ++ ⟨es, some a⟩ :: rest)).start ops :=
  run_late (s := s.accept ops) a (fun f hf => by cases hf; rfl) hs prompt busy hrest

/-- A command that is not over when `exec` has run it started micro-steps, and S0 has not looked at
the script. -/
theorem exec_starts {i : Instr} {s t : State} (h : exec i s = .next t) (busy : t.busy ≠ none) :
    ∃ ops, ∀ sc, exec i (s.withScript sc) = .next ((s.withScript sc).start ops) := by
  rcases exec_cases i s with ⟨c, e⟩ | ⟨d, e⟩ | ⟨en, -, e⟩ | ⟨v, -, e⟩ | ⟨c, v, -, e⟩ | ⟨c, -, e⟩ |
    ⟨rfl, -⟩ | ⟨c, rfl, passes, -⟩ | ⟨c, r, rfl, accepted, -⟩ | ⟨c, up, pulls, input, -⟩ |
    ⟨c, en, rfl, gpio, -⟩ | ⟨c, rfl, input, -⟩
  iterate 6 cases e.symm.trans h; exact absurd rfl busy
  · exact ⟨aggOps s, fun sc => exec_tchall (s.withScript sc)⟩
  · exact ⟨aggOps s ++ [.judgeTouch c], fun sc => exec_tchch_passes (s := s.withScript sc) passes⟩
  · exact ⟨_, fun sc => exec_settype_accepted (s := s.withScript sc) accepted⟩
  · exact ⟨_, fun sc => exec_pull (s := s.withScript sc) pulls input⟩
  · exact ⟨_, fun sc => exec_gpioen_gpio (s := s.withScript sc) en gpio⟩
  · exact ⟨_, fun sc => exec_gpiost_input (s := s.withScript sc) input⟩

/-- Settles O14: the micro-step that waits is finished by the answer, late or not, and the command
goes on from there. -/
theorem lateAnswerIsAsGoodAsPrompt : Obligations.LateAnswerIsAsGoodAsPrompt := by
  intro i s u pre rest es a later h prompt busy hrest
  generalize hw : ({ s with script := pre ++ ⟨es, none⟩ :: rest, inputs := later } : State) = w at h
  have script : w.script = pre ++ ⟨es, none⟩ :: rest := by rw [← hw]
  have answered : { s with script := pre ++ ⟨es, some a⟩ :: rest, inputs := later } =
      w.withScript (pre ++ ⟨es, some a⟩ :: rest) := by rw [← hw]; rfl
  obtain ⟨ops, starts⟩ := exec_starts h busy
  obtain rfl : u = w.start ops := Host.Outcome.next.inj (h.symm.trans (starts w.script))
  have inputs : (w.start ops).inputs = later :=
    (run_inputs (w.accept ops)).trans (by rw [accept_inputs, ← hw])
  obtain ⟨f, hb⟩ := Option.ne_none_iff_exists'.mp busy
  obtain ⟨r, ho⟩ := Option.ne_none_iff_exists'.mp (run_atRest (w.accept ops) f hb)
  calc step { w.start ops with inputs := .answer a :: later }
      = .next (({ w.start ops with inputs := later } : State).lateAnswer a) :=
        step_waiting_answer hb ho rfl
    _ = .next ((w.start ops).lateAnswer a) := by rw [← inputs]
    _ = .next ((w.withScript (pre ++ ⟨es, some a⟩ :: rest)).start ops) := by
        rw [start_late a script prompt busy hrest]
    _ = exec i { s with script := pre ++ ⟨es, some a⟩ :: rest, inputs := later } := by
        rw [answered, starts]

end Sys2Proof.Machine
end
